-- ==== Sys2Proof/Word.lean ====
section
/-! DEFINITION. The words of the HL128: bytes, record handles, the numbers by which the part names its
entries, cells and claim slots, claimant tags and versions. -/

namespace Sys2Proof

/-- One byte, on the line, on the host port or in a cell. -/
abbrev Byte := BitVec 8

/-- A host value of two bytes, sent high byte first (R180). -/
abbrev Half := BitVec 16

/-- A record's handle on the line, 0 to 511 (R9). -/
abbrev Handle := BitVec 9

/-- A claimant tag, or a FETCH segment index: the tag field of H2 (R94). -/
abbrev Tag := BitVec 4

/-- A version, 0 to 63, which follows 63 with 0 (R6). -/
abbrev Version := BitVec 6

/-- An entry of the Record Table, 0 to 127. -/
abbrev EntryNo := Fin 128

/-- A cell of the Cell Pool, 0 to 383 (R28). -/
abbrev CellNo := Fin 384

/-- A claim slot, 0 to 7 (R66). -/
abbrev SlotNo := Fin 8

end Sys2Proof
end

