-- ==== Sys2Proof/Config.lean ====
section
/-! DEFINITION. The numbers the spec fixes, and the two free orders it leaves open. -/

namespace Sys2Proof

/-- An age stops at 65535 ms (R5). -/
def Config.maxAge : Nat := 65535

/-- The bytes of one cell (R28). -/
def Config.cellBytes : Nat := 16

/-- The longest command frame, which the command buffer holds (R165). -/
def Config.bufferBytes : Nat := 42

/-- The largest parameter count a frame may declare (R167). -/
def Config.maxCount : Nat := 40

/-- The ticks of one second of the idle limit (R150). -/
def Config.ticksPerSecond : Nat := 1000

/-- Segment hold after power-on or pin reset, in Tb (R144). -/
def Config.defaultHold : Nat := 400

/-- Claim lease after power-on or pin reset, in ms (R144). -/
def Config.defaultLease : Nat := 1000

/-- FREE ORDER (log 7). The spec does not say in which order the postings of one tick reach the Attention Unit.
The entries that join the attention list at one tick join it in rising order of this rank, drawn at the tick's own
number. It has no body: a claim holds for every order. DESIGN CHOICE, safe. -/
opaque Config.postRank : Nat → Nat → Nat

/-- FREE ORDER (log 10). A header can be decoded while a host command stands handed to its block and not yet taken. The
spec lets the request for the answer be taken before that command or after it (R66, R105, R108). Whether it waits is
drawn here, at the number of the draw. It has no body: a claim holds for either order. DESIGN CHOICE, safe. -/
opaque Config.requestWaits : Nat → Bool

end Sys2Proof
end

