-- ==== Sys2Proof/Syntax.lean ====
section
/-! DEFINITION. The commands of the HL128, one constructor for each row of spec/opcode_table.json.
Host commands carry the parameters of R180, each as wide as the command frame makes it. Event rows carry what the
event itself brings and no register of the part holds (a received byte, a sampled level). -/

namespace Sys2Proof

/-- A command the part takes: a host command, an edge of CS, a reset, a tick or expiry, or an event on the line. -/
inductive Instr where
  /-- NOP (R169). -/
  | nop
  /-- CONFIGURE (R145): rate code, H in Tb, idle limit in s, claim lease in ms. -/
  | configure (rate : Byte) (holdTb : Half) (idle : Byte) (lease : Half)
  /-- SET_MODE (R146): mode code. -/
  | setMode (mode : Byte)
  /-- ROUSE (R152). -/
  | rouse
  /-- DEFINE (R15, R16): handle, role, length, permits, freshness limit, notify mask. -/
  | define (handle : Half) (role len permits : Byte) (limit mask : Half)
  /-- AMEND (R17, R18): entry, selector, permits, notify mask, freshness limit. -/
  | amend (entry selector permits : Byte) (mask limit : Half)
  /-- STAGE (R35 to R37): entry, offset, data bytes. -/
  | stage (entry offset : Byte) (data : List Byte)
  /-- COMMIT (R38, R39): entry. -/
  | commit (entry : Byte)
  /-- DISCARD (R41): entry. -/
  | discard (entry : Byte)
  /-- READ (R42): entry, offset, count. -/
  | read (entry offset count : Byte)
  /-- DESCRIBE (R21): entry. -/
  | describe (entry : Byte)
  /-- FIND (R20): handle. -/
  | find (handle : Half)
  /-- Host RETIRE (R23, R24, R27): entry. -/
  | retire (entry : Byte)
  /-- HOLD (R77): entry. -/
  | hold (entry : Byte)
  /-- LET_GO (R78, R79): entry, force. -/
  | letGo (entry force : Byte)
  /-- TAKE (R158). -/
  | take
  /-- LINE_STATUS (R163). -/
  | lineStatus
  /-- RESTART (R176). -/
  | restart
  /-- CS_FALL (R166). -/
  | csFall
  /-- CS_RISE (R167): the complete bytes of the transaction, in the order received (R165). -/
  | csRise (bytes : List Byte)
  /-- POWER_ON (R172). -/
  | powerOn
  /-- PIN_RESET (R172): the RESET pin is asserted. -/
  | pinReset
  /-- RESET_RELEASE (R172): power is in range and the RESET pin is released. -/
  | resetRelease
  /-- INITIALISATION_COMPLETE (R172). -/
  | initialisationComplete
  /-- TICK (R54, R55, R73, R150). -/
  | tick
  /-- FRESHNESS_EXPIRY (R58) of one entry. -/
  | freshnessExpiry (entry : EntryNo)
  /-- LEASE_EXPIRY (R73) of one slot. -/
  | leaseExpiry (slot : SlotNo)
  /-- IDLE_EXPIRY (R150). -/
  | idleExpiry
  /-- DEFERRED_IDLE_EXPIRY (R150). -/
  | deferredIdleExpiry
  /-- SEGMENT_HOLD_EXPIRY (R113). -/
  | segmentHoldExpiry
  /-- DOMINANT_RUN_START (R91). -/
  | dominantRunStart
  /-- RUN_SHORT_OF_BREAK (R91). -/
  | runShortOfBreak
  /-- BREAK_RECOGNISED (R90). -/
  | breakRecognised
  /-- BREAK_END (R91). -/
  | breakEnd
  /-- HEADER_CHARACTER (R93): the byte, and whether the stop bit's sample is dominant (R87). -/
  | headerCharacter (byte : Byte) (stopDominant : Bool)
  /-- HEADER_OVERTIME (R93). -/
  | headerOvertime
  /-- SPACE_COLLISION (R131). -/
  | spaceCollision
  /-- RESPONSE_SPACE_END (R98). -/
  | responseSpaceEnd
  /-- READBACK_MISMATCH (R132). -/
  | readbackMismatch
  /-- COLLIDED_CHARACTER_END (R132): whether a dominant run that has reached 12 Tb goes on (R90). -/
  | collidedCharacterEnd (breakGoesOn : Bool)
  /-- ANSWER_COMPLETE (R98). -/
  | answerComplete
  /-- RESPONSE_CHARACTER (R100): the byte, and whether the stop bit's sample is dominant (R87). -/
  | responseCharacter (byte : Byte) (stopDominant : Bool)
  /-- RESPONSE_WINDOW_DEADLINE (R136). -/
  | responseWindowDeadline
  /-- LINE_STUCK (R140). -/
  | lineStuck
  /-- RECOVERING_RUN_END (R141). -/
  | recoveringRunEnd
  /-- RECOVERY_COMPLETE (R141). -/
  | recoveryComplete
  /-- DORMANT_SHORT_RUN (R151). -/
  | dormantShortRun
  /-- ROUSE_DETECTED (R151). -/
  | rouseDetected
  /-- ROUSE_RUN_END (R151). -/
  | rouseRunEnd
  /-- DORMANT_LINE_STUCK (R151). -/
  | dormantLineStuck
  /-- ROUSE_PULSE_END (R153): whether the level read at the end of the pulse is dominant. -/
  | rousePulseEnd (dominant : Bool)
  /-- ROUSE_LINE_RELEASE (R153). -/
  | rouseLineRelease
  /-- ROUSE_STUCK_TIMEOUT (R153). -/
  | rouseStuckTimeout
  /-- OFFLINE_CHARACTER_END (R148). -/
  | offlineCharacterEnd
  /-- RESTART_CHARACTER_END (R178). -/
  | restartCharacterEnd
  /-- TAKE_ENDED_VACATE (R159). -/
  | takeEndedVacate
  /-- START_BIT_SAMPLE (R87): whether the sample at 0.5 Tb is dominant. -/
  | startBitSample (dominant : Bool)
  deriving DecidableEq, Repr

end Sys2Proof
end

