-- ==== Sys2Proof/WellFormed.lean ====
section
/-! DEFINITION. Which commands are well formed. Every operand but one has the width its frame gives it (R180), so
the one check left is on STAGE's data: the frame declares its parameter count in one byte (R167). -/

namespace Sys2Proof

/-- The parameter count of a command frame is one byte (R167). -/
def maxParameters : Nat := 255

/-- A command that can be sent: STAGE's entry, offset and data fit the parameter count byte (R167, R180). -/
def wellFormed : Instr → Bool
  | .stage _ _ data => decide (data.length + 2 ≤ maxParameters)
  | _ => true

end Sys2Proof
end

