-- ==== Sys2Proof/Decode.lean ====
section
/-! DEFINITION. Reading the bits of the part's two interfaces: the header bytes H1 and H2 (R94, R179) and the host's
command frames (R167, R180), each with its encoder beside it. spec/opcode_table.json gives its rows no bits, so
`decodeTableWord` spells no command (log 25). -/

namespace Sys2Proof

/-- The command a word of opcode_table.json spells: none, since no row of the table has bits (log 25). -/
def decodeTableWord (_nbits _w : Nat) : Option Instr := none

/-! ## The header (R94, R179) -/

/-- The handle: its low eight bits are H1, its ninth is bit 0 of H2 (R94). -/
def headerHandle (h1 h2 : Byte) : Handle := h2.extractLsb' 0 1 ++ h1

/-- The action field: bits 3 to 1 of H2 (R179). -/
def headerAction (h2 : Byte) : BitVec 3 := h2.extractLsb' 1 3

/-- The tag field: bits 7 to 4 of H2 (R179). -/
def headerTag (h2 : Byte) : Tag := h2.extractLsb' 4 4

/-- H1 of a header naming this handle (R179). -/
def encodeH1 (handle : Handle) : Byte := handle.extractLsb' 0 8

/-- H2 of a header with this handle, action field and tag (R179). -/
def encodeH2 (handle : Handle) (action : BitVec 3) (tag : Tag) : Byte :=
  tag ++ action ++ handle.extractLsb' 8 1

/-! ## Command frames (R167, R180) -/

/-- A host value's two bytes, high byte first (R180). -/
def halfBytes (h : Half) : List Byte := [h.extractLsb' 8 8, h.extractLsb' 0 8]

/-- What the Host Port makes of the bytes of a transaction that began in IDLE (R167). -/
inductive Judgement where
  /-- No complete byte: no effect. -/
  | noEffect
  /-- The first byte is the NOP code. -/
  | nop
  /-- Cut short, or a parameter count above 40. -/
  | badFrame
  /-- A whole frame: its code and its declared parameters. -/
  | frame (code : Byte) (params : List Byte)
  deriving DecidableEq, Repr

/-- The first case of R167's table that holds, for a transaction that began with READY asserted. Bytes beyond the
declared length are ignored. -/
def judgeFrame : List Byte → Judgement
  | [] => .noEffect
  | code :: rest =>
    if code = 0#8 then .nop
    else match rest with
      | [] => .badFrame
      | count :: params =>
        if Config.maxCount < count.toNat ∨ params.length < count.toNat then .badFrame
        else .frame code (params.take count.toNat)

/-- What the Host Port's own reading of a whole frame gives (R173, R180). -/
inductive CommandRead where
  /-- A command of section 10.4.1 with its parameters. -/
  | command (i : Instr)
  /-- The code names no command. -/
  | badCommand
  /-- The parameter count is not the command's. -/
  | badArgument
  deriving DecidableEq, Repr

/-- Read a command code and its parameters by the layouts of R180. A count that is not the command's is refused
BAD_ARGUMENT, an unknown code BAD_COMMAND (R173). -/
def decodeCommand (code : Byte) (params : List Byte) : CommandRead :=
  match code.toNat with
  | 0x00 => .command .nop
  | 0x01 => match params with
    | [r, h1, h0, i, l1, l0] => .command (.configure r (h1 ++ h0) i (l1 ++ l0))
    | _ => .badArgument
  | 0x02 => match params with
    | [m] => .command (.setMode m)
    | _ => .badArgument
  | 0x03 => match params with
    | [] => .command .rouse
    | _ => .badArgument
  | 0x10 => match params with
    | [h1, h0, r, l, p, f1, f0, n1, n0] => .command (.define (h1 ++ h0) r l p (f1 ++ f0) (n1 ++ n0))
    | _ => .badArgument
  | 0x11 => match params with
    | [e, s, p, n1, n0, f1, f0] => .command (.amend e s p (n1 ++ n0) (f1 ++ f0))
    | _ => .badArgument
  | 0x12 => match params with
    | e :: o :: data => if 1 ≤ data.length ∧ data.length ≤ 32 then .command (.stage e o data) else .badArgument
    | _ => .badArgument
  | 0x13 => match params with
    | [e] => .command (.commit e)
    | _ => .badArgument
  | 0x14 => match params with
    | [e] => .command (.discard e)
    | _ => .badArgument
  | 0x15 => match params with
    | [e, o, c] => .command (.read e o c)
    | _ => .badArgument
  | 0x16 => match params with
    | [e] => .command (.describe e)
    | _ => .badArgument
  | 0x17 => match params with
    | [h1, h0] => .command (.find (h1 ++ h0))
    | _ => .badArgument
  | 0x18 => match params with
    | [e] => .command (.retire e)
    | _ => .badArgument
  | 0x20 => match params with
    | [e] => .command (.hold e)
    | _ => .badArgument
  | 0x21 => match params with
    | [e, f] => .command (.letGo e f)
    | _ => .badArgument
  | 0x30 => match params with
    | [] => .command .take
    | _ => .badArgument
  | 0x31 => match params with
    | [] => .command .lineStatus
    | _ => .badArgument
  | 0x3F => match params with
    | [] => .command .restart
    | _ => .badArgument
  | _ => .badCommand

/-- The code and parameters of a host command's frame (R180); none for a row that is no host command. -/
def encodeCommand : Instr → Option (Byte × List Byte)
  | .nop => some (0x00#8, [])
  | .configure r h i l => some (0x01#8, r :: halfBytes h ++ i :: halfBytes l)
  | .setMode m => some (0x02#8, [m])
  | .rouse => some (0x03#8, [])
  | .define h r l p f n => some (0x10#8, halfBytes h ++ r :: l :: p :: halfBytes f ++ halfBytes n)
  | .amend e s p n f => some (0x11#8, e :: s :: p :: halfBytes n ++ halfBytes f)
  | .stage e o data => some (0x12#8, e :: o :: data)
  | .commit e => some (0x13#8, [e])
  | .discard e => some (0x14#8, [e])
  | .read e o c => some (0x15#8, [e, o, c])
  | .describe e => some (0x16#8, [e])
  | .find h => some (0x17#8, halfBytes h)
  | .retire e => some (0x18#8, [e])
  | .hold e => some (0x20#8, [e])
  | .letGo e f => some (0x21#8, [e, f])
  | .take => some (0x30#8, [])
  | .lineStatus => some (0x31#8, [])
  | .restart => some (0x3F#8, [])
  | .csFall | .csRise _ | .powerOn | .pinReset | .resetRelease | .initialisationComplete | .tick
  | .freshnessExpiry _ | .leaseExpiry _ | .idleExpiry | .deferredIdleExpiry | .segmentHoldExpiry
  | .dominantRunStart | .runShortOfBreak | .breakRecognised | .breakEnd | .headerCharacter _ _ | .headerOvertime
  | .spaceCollision | .responseSpaceEnd | .readbackMismatch | .collidedCharacterEnd _ | .answerComplete
  | .responseCharacter _ _ | .responseWindowDeadline | .lineStuck | .recoveringRunEnd | .recoveryComplete
  | .dormantShortRun | .rouseDetected | .rouseRunEnd | .dormantLineStuck | .rousePulseEnd _ | .rouseLineRelease
  | .rouseStuckTimeout | .offlineCharacterEnd | .restartCharacterEnd | .takeEndedVacate | .startBitSample _ => none

/-- The whole frame of a host command: code, parameter count, parameters (R167). -/
def encodeFrame (i : Instr) : Option (List Byte) :=
  (encodeCommand i).map fun f => f.1 :: BitVec.ofNat 8 f.2.length :: f.2

end Sys2Proof
end

