-- ==== Sys2Proof/Machine/State.lean ====
section
/-! DEFINITION. The state of the HL128, block by block (00_scope.md section 2), and the state after reset.
INVENTORY.md, under '## State', lists every field with the rule that names it. -/

namespace Sys2Proof.Machine

/-! ## Why a step can stop -/

/-- No command of this part stops the machine: every refusal is a status in the reply slot (R175) and every line
fault is a cause or a condition (chapter 7). So there is no fault. Safe: nothing is raised. -/
inductive Fault where
  deriving DecidableEq, Repr

/-- A command without a meaning. -/
inductive Refusal where
  /-- Raised by `exec` alone, for a row that has no meaning yet; no arm raises it now. Safe: the machine stops. -/
  | notModelled (mnemonic : String)
  deriving DecidableEq, Repr

/-! ## Table Controller -/

/-- The six states of an entry (R11). -/
inductive EntryState where
  | vacant | draft | live | stale | retiring | ended
  deriving DecidableEq, Repr

/-- Who answers for the record (R3). -/
inductive Role where
  | source | mirror
  deriving DecidableEq, Repr

/-- The three grants of a SOURCE record (R4). -/
structure Permits where
  storeOk : Bool
  claimOk : Bool
  retireOk : Bool
  deriving DecidableEq, Repr

/-- A held copy: its cells, and the version it had while it was current (R33). -/
structure HeldCopy where
  cells : List CellNo
  version : Version
  deriving DecidableEq, Repr

/-- A record's fields (section 1.2). The notify mask and cause set are in the attention record (R8, R154). `amended` is
the model's own: an AMEND has written the limit since the last tick, and no comparison uses it yet (R61, log 6). -/
structure Entry where
  state : EntryState
  handle : Handle
  role : Role
  length : Nat
  permits : Permits
  limit : Nat
  amended : Bool
  age : Nat
  version : Version
  current : Option (List CellNo)
  staged : Option (List CellNo)
  held : Option HeldCopy
  staleSeen : Bool
  claimedSeen : Bool
  deriving DecidableEq, Repr

/-- An entry that is VACANT, as every reset leaves it (R2). The fields R2 says hold no value that any block reads
are given one value here. DESIGN CHOICE (log 8), unsafe only for a claim about those fields of a VACANT entry. -/
def Entry.vacant : Entry where
  state := .vacant
  handle := 0
  role := .source
  length := 0
  permits := ⟨false, false, false⟩
  limit := 0
  amended := false
  age := 0
  version := 0
  current := none
  staged := none
  held := none
  staleSeen := false
  claimedSeen := false

/-- Which copy of its entry the pin marks (R43). -/
inductive PinKind where
  | current | held
  deriving DecidableEq, Repr

/-- Who owns the pin (R43). -/
inductive PinOwner where
  | frame | sequence
  deriving DecidableEq, Repr

/-- The one pin (R43). -/
structure Pin where
  entry : EntryNo
  kind : PinKind
  owner : PinOwner
  deriving DecidableEq, Repr

/-- The Record Table, the Handle Index (R9), the in-flight mark (R12) and the pin (R43). -/
structure TableController where
  entries : Vector Entry 128
  index : Vector (Option EntryNo) 512
  inFlight : Option EntryNo
  pin : Option Pin
  deriving DecidableEq, Repr

/-- The table after a power-on, a pin reset or a RESTART (R2, R12, R43). -/
def TableController.reset : TableController where
  entries := Vector.replicate 128 Entry.vacant
  index := Vector.replicate 512 none
  inFlight := none
  pin := none

/-! ## Cell Pool -/

/-- The 384 cells' bytes, as a list of (address, byte) pairs where byte b of cell c has address 16c + b, and the
free list, head first (R28, R29). -/
structure CellPool where
  bytes : List Host.Cell
  free : List CellNo
  deriving DecidableEq, Repr

/-- The free list after every reset: 0 to 383 in ascending order (R29). -/
def CellPool.allFree : List CellNo := List.finRange 384

/-- The pool after a power-on: no byte listed (log 9), every cell free (R29). -/
def CellPool.reset : CellPool := ⟨[], CellPool.allFree⟩

/-! ## Claim Table -/

/-- A claim slot (R67). The states and origins that R67 allows together are the constructors: a RESERVED slot has
origin LINE; a HOST claim is HELD, with tag 0 and lease 0. -/
inductive Slot where
  /-- FREE: no claim. -/
  | free
  /-- RESERVED, origin LINE: a CLAIM decided GRANTED or RENEWED whose answer has not ended; renewal is the flag. -/
  | reserved (entry : EntryNo) (tag : Tag) (lease : Nat) (renewal : Bool)
  /-- HELD, origin LINE, with the lease left in ms. -/
  | heldLine (entry : EntryNo) (tag : Tag) (lease : Nat)
  /-- HELD, origin HOST. -/
  | heldHost (entry : EntryNo)
  deriving DecidableEq, Repr

/-- The eight slots and the configured claim lease in ms (R66, R74). -/
structure ClaimTable where
  slots : Vector Slot 8
  lease : Nat
  deriving DecidableEq, Repr

/-- Every slot FREE (R68). -/
def ClaimTable.noClaims : Vector Slot 8 := Vector.replicate 8 .free

/-! ## Line Unit -/

/-- The line mode (R143). -/
inductive LineMode where
  | offline | listen | dormant | rousing
  deriving DecidableEq, Repr

/-- The frame phase (R101). -/
inductive Phase where
  | waiting | inBreak | header | space | answering | receiving | skipping | recovering
  deriving DecidableEq, Repr

/-- The six actions (R94). -/
inductive Action where
  | fetch | store | claim | release | probe | retire
  deriving DecidableEq, Repr

/-- The one-byte outcomes sent on the line (R179). -/
inductive AnswerCode where
  | granted | renewed | heldByOther | claimsFull | notPermitted | released | notHolder | retired | refused
  deriving DecidableEq, Repr

/-- What the decode's reply says of the entry the lookup names: its state, role and L (R97, R105). -/
structure Found where
  state : EntryState
  role : Role
  length : Nat
  deriving DecidableEq, Repr

/-- The frame context but for its phase (R102), with what the lookup found of the entry (R97), whether the request for
the answer is sent and not yet taken (R105, R108, log 10), its reply (R108, R120) and the characters of the part's own
answer (R109). An absent field is none; the cleared context is every field's default. -/
structure FrameContext where
  handle : Option Handle := none
  action : Option Action := none
  tag : Option Tag := none
  entry : Option EntryNo := none
  found : Option Found := none
  asking : Bool := false
  segment : Option Tag := none
  n : Option Nat := none
  deadline : Option Nat := none
  code : Option AnswerCode := none
  reply : List Byte := []
  answer : List Byte := []
  deriving DecidableEq, Repr

/-- What an open sequence does (R111). -/
inductive SequenceKind where
  | serve | assemble
  deriving DecidableEq, Repr

/-- The sequence context while it is OPEN (R111). The version is ASSEMBLE's; SERVE holds none. The hold deadline is
the number of Tb after the end of the segment that left the sequence open (R112), or none. -/
structure SequenceContext where
  kind : SequenceKind
  handle : Handle
  entry : EntryNo
  next : Nat
  version : Option Version
  hold : Option Nat
  deriving DecidableEq, Repr

/-- How the part drives TXD (R85): high, the bits of its own characters, or the low rouse pulse. -/
inductive TxdDrive where
  | released | answer | pulse
  deriving DecidableEq, Repr

/-- The four bit rates (R86). -/
inductive Rate where
  | r4800 | r9600 | r19200 | r38400
  deriving DecidableEq, Repr

/-- The line mode, the frame context, the sequence context, the landing buffer, the line's receivers and the
configuration (R86, R101, R102, R111, R143, R144, R150). `runBefore` says that a dominant run under way at the entry to
LISTEN may still go on: it is no break (R89, log 13). `edge` says that a start edge of the response has been seen whose
sample is still to come (R100, R136, log 31). -/
structure LineUnit where
  mode : LineMode
  phase : Phase
  frame : FrameContext
  landing : List Byte
  header : List Byte
  check : Byte
  assembling : Bool
  startSeen : Bool
  edge : Bool
  breakSeen : Bool
  runBefore : Bool
  collided : Bool
  rouseSeen : Bool
  txd : TxdDrive
  seq : Option SequenceContext
  rate : Rate
  hold : Nat
  idleLimit : Nat
  idle : Option Nat
  idlePending : Bool
  deriving DecidableEq, Repr

/-- The Line Unit after a power-on or a pin reset (R143, R144, R102, R111, R150). -/
def LineUnit.reset : LineUnit where
  mode := .offline
  phase := .waiting
  frame := {}
  landing := []
  header := []
  check := 0xFF#8
  assembling := false
  startSeen := false
  edge := false
  breakSeen := false
  runBefore := false
  collided := false
  rouseSeen := false
  txd := .released
  seq := none
  rate := .r9600
  hold := Config.defaultHold
  idleLimit := 0
  idle := none
  idlePending := false

/-! ## Attention Unit -/

/-- The thirteen record causes (section 9.1). -/
inductive Cause where
  | updated | stale | noAnswer | damaged | overtime | collided | dropped | segBroken | badSegment | denied
  | claimTaken | claimEnded | retired
  deriving DecidableEq, Repr

/-- A set of record causes: bit b is the cause of that number in R180's table. -/
abbrev CauseSet := BitVec 13

/-- The eight line conditions (R162). -/
inductive LineCondition where
  | syncBad | headerFraming | headerCheck | headerOvertime | unknownAction | lineStuck | cut | abandoned
  deriving DecidableEq, Repr

/-- Whether causes are kept for an entry (R154). -/
inductive PostingState where
  | closed | opened | ending
  deriving DecidableEq, Repr

/-- An entry's attention record (R154). -/
structure AttentionRecord where
  posting : PostingState
  handle : Handle
  mask : CauseSet
  causes : CauseSet
  deriving DecidableEq, Repr

/-- The mask that holds RETIRED alone: bit 12 (R154, R180). -/
def CauseSet.retiredOnly : CauseSet := 0x1000#13

/-- An attention record after every reset (R154). Its handle is not meaningful while CLOSED (log 8). -/
def AttentionRecord.closed : AttentionRecord := ⟨.closed, 0, CauseSet.retiredOnly, 0⟩

/-- The attention records, the attention list (head first), the line condition set (bit numbers of R181) and the
ATTN pin (R154, R157, R162, R164). -/
structure AttentionUnit where
  records : Vector AttentionRecord 128
  list : List EntryNo
  conditions : BitVec 8
  attn : Bool
  deriving DecidableEq, Repr

/-- The Attention Unit after every reset (R154, R164). -/
def AttentionUnit.reset : AttentionUnit where
  records := Vector.replicate 128 AttentionRecord.closed
  list := []
  conditions := 0
  attn := false

/-! ## Host Port -/

/-- The Host Port's states (R168). -/
inductive PortState where
  | initialising | idle | shifting | working | workingBusy
  deriving DecidableEq, Repr

/-- The eighteen status codes (section 10.4.2). -/
inductive Status where
  | done | started | busy | badFrame | badCommand | badArgument | noEntry | wrongState | wrongRole | wrongMode
  | handleInUse | tableFull | noCells | claimed | claimsFull | lineBusy | empty | noData
  deriving DecidableEq, Repr

/-- The reply slot: a status and its reply bytes; the reply length is their number (R169). -/
structure Reply where
  status : Status
  data : List Byte
  deriving DecidableEq, Repr

/-- The command outstanding (R173, R174). -/
inductive Work where
  /-- Handed to its owning block, which has not taken it yet. -/
  | handed (i : Instr)
  /-- SET_MODE OFFLINE taken in ANSWERING: completes at the end of the character under way (R148). -/
  | offline
  /-- ROUSE taken: completes at entry to LISTEN (R153). -/
  | rouse
  /-- RESTART taken in ANSWERING: completes at the end of the character under way (R178). -/
  | restart
  /-- TAKE of an ENDING entry: completes when the Table Controller has made the entry VACANT (R159). -/
  | vacate (entry : EntryNo) (reply : List Byte)
  deriving DecidableEq, Repr

/-- How far a power-on or pin reset has come (R172). -/
inductive ResetStage where
  /-- The supply is out of range or the RESET pin is asserted. -/
  | held
  /-- Released; the part is initialising its blocks. -/
  | initialising
  /-- Initialisation has completed. -/
  | complete
  deriving DecidableEq, Repr

/-- The port's state, the READY pin, the level of CS, what SDO shifts out (none: high impedance), the command
buffer, the reply slot, the command outstanding and the reset's progress (R165 to R174). `shifted` is the model's record
of its output: the bytes SDO has carried in the transaction that ended last (R166, log 32). -/
structure HostPort where
  state : PortState
  ready : Bool
  csLow : Bool
  sdo : Option (List Byte)
  shifted : List Byte
  buffer : List Byte
  slot : Reply
  work : Option Work
  stage : ResetStage
  deriving DecidableEq, Repr

/-- The Host Port once initialisation has completed with CS high (R168, R172). -/
def HostPort.reset : HostPort where
  state := .idle
  ready := true
  csLow := false
  sdo := none
  shifted := []
  buffer := []
  slot := ⟨.started, []⟩
  work := none
  stage := .complete

/-! ## The machine -/

/-- The HL128, and the queue of commands sent to it and not yet taken, first in first out. `orderCount` is the model's
own: the number at which the next free posting order is drawn (log 7). `requestCount` is the model's own too: the number
at which it is drawn next whether a request waits (log 10). -/
structure State where
  table : TableController
  pool : CellPool
  claims : ClaimTable
  line : LineUnit
  attention : AttentionUnit
  host : HostPort
  orderCount : Nat
  requestCount : Nat
  pending : List Instr
  deriving DecidableEq, Repr

/-- The part right after its initialisation completes: every block in its reset state, the Host Port IDLE with READY
asserted and STARTED in the reply slot (R172). DEDUCED (log 1). -/
def State.reset : State where
  table := TableController.reset
  pool := CellPool.reset
  claims := ⟨ClaimTable.noClaims, Config.defaultLease⟩
  line := LineUnit.reset
  attention := AttentionUnit.reset
  host := HostPort.reset
  orderCount := 0
  requestCount := 0
  pending := []

end Sys2Proof.Machine
end

