-- ==== Sys2Proof/Machine/Operands.lean ====
section
/-! DEFINITION. How operands and reply fields are coded on the two interfaces (R94, R179, R180, R181). -/

namespace Sys2Proof.Machine

/-! ## Codes the host sends and reads (R180, R181) -/

/-- The rate a rate code names (R180). -/
def Rate.ofCode (b : Byte) : Option Rate :=
  if b = 0x00#8 then some .r4800
  else if b = 0x01#8 then some .r9600
  else if b = 0x02#8 then some .r19200
  else if b = 0x03#8 then some .r38400
  else none

/-- The mode a mode code names (R180). -/
def LineMode.ofCode (b : Byte) : Option LineMode :=
  if b = 0x00#8 then some .offline
  else if b = 0x01#8 then some .listen
  else if b = 0x02#8 then some .dormant
  else if b = 0x03#8 then some .rousing
  else none

/-- Mode codes (R180). -/
def LineMode.code : LineMode → Byte
  | .offline => 0x00#8
  | .listen => 0x01#8
  | .dormant => 0x02#8
  | .rousing => 0x03#8

/-- Phase codes (R181). -/
def Phase.code : Phase → Byte
  | .waiting => 0x00#8
  | .inBreak => 0x01#8
  | .header => 0x02#8
  | .space => 0x03#8
  | .answering => 0x04#8
  | .receiving => 0x05#8
  | .skipping => 0x06#8
  | .recovering => 0x07#8

/-- The role a role byte names (R180). -/
def Role.ofCode (b : Byte) : Option Role :=
  if b = 0x01#8 then some .source
  else if b = 0x02#8 then some .mirror
  else none

/-- Role codes (R180). -/
def Role.code : Role → Byte
  | .source => 0x01#8
  | .mirror => 0x02#8

/-- The permits byte: bits 0 to 2; bits 7 to 3 are not read (R180). -/
def Permits.ofByte (b : Byte) : Permits := ⟨b.getLsbD 0, b.getLsbD 1, b.getLsbD 2⟩

/-- The permits in a DESCRIBE reply: the same coding, bits 7 to 3 clear (R181, log 27). -/
def Permits.code (p : Permits) : Byte :=
  0#5 ++ BitVec.ofBool p.retireOk ++ BitVec.ofBool p.claimOk ++ BitVec.ofBool p.storeOk

/-- Whether any permit is yes (R15, R17). -/
def Permits.any (p : Permits) : Bool := p.storeOk || p.claimOk || p.retireOk

/-- State codes of an entry, on the host port and in a PROBE answer (R179, R181). -/
def EntryState.code : EntryState → Byte
  | .vacant => 0x00#8
  | .draft => 0x01#8
  | .live => 0x02#8
  | .stale => 0x03#8
  | .retiring => 0x04#8
  | .ended => 0x05#8

/-- Status codes (R181). -/
def Status.code : Status → Byte
  | .done => 0x00#8
  | .started => 0x01#8
  | .busy => 0x02#8
  | .badFrame => 0x03#8
  | .badCommand => 0x04#8
  | .badArgument => 0x05#8
  | .noEntry => 0x06#8
  | .wrongState => 0x07#8
  | .wrongRole => 0x08#8
  | .wrongMode => 0x09#8
  | .handleInUse => 0x0A#8
  | .tableFull => 0x0B#8
  | .noCells => 0x0C#8
  | .claimed => 0x0D#8
  | .claimsFull => 0x0E#8
  | .lineBusy => 0x0F#8
  | .empty => 0x10#8
  | .noData => 0x11#8

/-- A number of at most two bytes as a host value, high byte first (R181). -/
def numberBytes (n : Nat) : List Byte := halfBytes (BitVec.ofNat 16 n)

/-- A handle as a host value (R181). -/
def handleBytes (h : Handle) : List Byte := halfBytes (h.zeroExtend 16)

/-- A cause set or notify mask as a host value: bits 15 to 13 are 0 (R180). -/
def causeBytes (c : CauseSet) : List Byte := halfBytes (c.zeroExtend 16)

/-- The source flags byte: bit 0 stale-seen, bit 1 claimed-seen (R181). -/
def Entry.flagsByte (e : Entry) : Byte := 0#6 ++ BitVec.ofBool e.claimedSeen ++ BitVec.ofBool e.staleSeen

/-- The copies-present byte: bit 0 current, bit 1 staged, bit 2 held (R181). -/
def Entry.copiesByte (e : Entry) : Byte :=
  0#5 ++ BitVec.ofBool e.held.isSome ++ BitVec.ofBool e.staged.isSome ++ BitVec.ofBool e.current.isSome

/-! ## Codes on the line (R94, R179) -/

/-- The action an action field names; codes 6 and 7 name none (R94). -/
def Action.ofCode (a : BitVec 3) : Option Action :=
  if a = 0#3 then some .fetch
  else if a = 1#3 then some .store
  else if a = 2#3 then some .claim
  else if a = 3#3 then some .release
  else if a = 4#3 then some .probe
  else if a = 5#3 then some .retire
  else none

/-- Action codes (R94). -/
def Action.code : Action → BitVec 3
  | .fetch => 0#3
  | .store => 1#3
  | .claim => 2#3
  | .release => 3#3
  | .probe => 4#3
  | .retire => 5#3

/-- Answer codes (R179). -/
def AnswerCode.code : AnswerCode → Byte
  | .granted => 0x01#8
  | .renewed => 0x02#8
  | .heldByOther => 0x03#8
  | .claimsFull => 0x04#8
  | .notPermitted => 0x05#8
  | .released => 0x11#8
  | .notHolder => 0x12#8
  | .retired => 0x21#8
  | .refused => 0x22#8

/-- The SYNC byte (R94). -/
def syncByte : Byte := 0xC5#8

/-- The FETCH tag byte: CLAIMED, STALE, version (R108, R179). -/
def tagByte (claimed stale : Bool) (version : Version) : Byte :=
  BitVec.ofBool claimed ++ BitVec.ofBool stale ++ version

/-- The version a captured tag byte carries: bits 5 to 0 (R179). -/
def tagVersion (b : Byte) : Version := b.extractLsb' 0 6

/-- The STALE bit of a captured tag byte: bit 6 (R63). -/
def tagStale (b : Byte) : Bool := b.getLsbD 6

/-- The CLAIMED bit of a captured tag byte: bit 7 (R63). -/
def tagClaimed (b : Byte) : Bool := b.getLsbD 7

/-! ## Selectors, masks and commands the Host Port refuses itself -/

/-- Whether a selector is one of the three fields, any nonempty set of them (R17, R180). -/
def selectorOk (b : Byte) : Bool := decide (1 ≤ b.toNat ∧ b.toNat ≤ 7)

/-- Whether a mask names nothing but the thirteen causes (R15, R180). -/
def maskOk (m : Half) : Bool := decide (m.toNat < 8192)

/-- The mask as stored: RETIRED added (R8). -/
def storedMask (m : Half) : CauseSet := m.truncate 13 ||| CauseSet.retiredOnly

/-- The Host Port's own refusal of a host command, if any (R167, R171, R173): a STAGE frame declaring more than 40
parameters is BAD_FRAME, one declaring fewer than 3 or more than 34 is BAD_ARGUMENT, and so is a LET_GO whose force
option is neither no nor yes. -/
def portRefusal : Instr → Option Status
  | .stage _ _ data =>
    if 38 < data.length then some .badFrame
    else if data.length = 0 ∨ 32 < data.length then some .badArgument
    else none
  | .letGo _ force => if force = 0#8 ∨ force = 1#8 then none else some .badArgument
  | _ => none

end Sys2Proof.Machine
end

