-- ==== Sys2Proof/Machine/Flags.lean ====
section
/-! DEFINITION. The sets the part keeps (causes, conditions) and the check of the line (R95, R96, R162, R180). -/

namespace Sys2Proof.Machine

/-- A cause's number in R180's table. -/
def Cause.number : Cause → Nat
  | .updated => 0
  | .stale => 1
  | .noAnswer => 2
  | .damaged => 3
  | .overtime => 4
  | .collided => 5
  | .dropped => 6
  | .segBroken => 7
  | .badSegment => 8
  | .denied => 9
  | .claimTaken => 10
  | .claimEnded => 11
  | .retired => 12

/-- The set that holds one cause. -/
def Cause.set (c : Cause) : CauseSet := 1#13 <<< c.number

/-- A line condition's bit in the line condition set (R181). -/
def LineCondition.number : LineCondition → Nat
  | .syncBad => 0
  | .headerFraming => 1
  | .headerCheck => 2
  | .headerOvertime => 3
  | .unknownAction => 4
  | .lineStuck => 5
  | .cut => 6
  | .abandoned => 7

/-- The set that holds one line condition. -/
def LineCondition.set (c : LineCondition) : BitVec 8 := 1#8 <<< c.number

/-- One shift of the check register toward its most significant bit (R95). -/
def crcShift (r : Byte) : Byte := if r.msb then (r <<< 1) ^^^ 0x07#8 else r <<< 1

/-- The check register after one byte: exclusive-or, then eight shifts (R95). -/
def crcByte (r b : Byte) : Byte :=
  crcShift (crcShift (crcShift (crcShift (crcShift (crcShift (crcShift (crcShift (r ^^^ b))))))))

/-- The value the check register starts from (R95). -/
def crcStart : Byte := 0xFF#8

/-- The check register run on over some bytes, in the order sent (R96). -/
def crcRun (r : Byte) (bs : List Byte) : Byte := bs.foldl crcByte r

/-- Bytes followed by their check, run on from the header (R96). -/
def withCheck (r : Byte) (bs : List Byte) : List Byte := bs ++ [crcRun r bs]

/-- The response window W(n) in Tb (R99). -/
def responseWindow (n : Nat) : Nat := 12 * n + 16

end Sys2Proof.Machine
end

