-- ==== Sys2Proof/Machine/Ops.lean ====
section
/-! DEFINITION. The shared operations of the blocks: the bytes and the free list of the Cell Pool, the fields of an
entry, the pin, the Claim Table's searches and decisions, posting and clearing at the Attention Unit, the teardown
of an entry, and the Host Port's taking and completing of a command. -/

namespace Sys2Proof.Machine

/-- What a command gives. No command of this part faults or is refused, so it is always a next state. -/
abbrev Result := Host.Outcome State Fault Refusal

/-! ## The bytes of the Cell Pool (R28) -/

/-- Bytes by address, in one canonical form: addresses strictly rising, and no entry that equals `Memory.unlisted`. -/
abbrev Memory := List Host.Cell

/-- What an unlisted address reads as. DESIGN CHOICE (log 9): the spec gives cells no contents after power-on. -/
def Memory.unlisted : Byte := 0x00#8

/-- The byte at an address. -/
def Memory.read : Memory → Nat → Byte
  | [], _ => Memory.unlisted
  | (b, v) :: rest, a => if b = a then v else Memory.read rest a

/-- The memory with one byte written, still in canonical form. -/
def Memory.write : Memory → Nat → Byte → Memory
  | [], a, v => if v = Memory.unlisted then [] else [(a, v)]
  | (b, w) :: rest, a, v =>
    if a < b then (if v = Memory.unlisted then (b, w) :: rest else (a, v) :: (b, w) :: rest)
    else if a = b then (if v = Memory.unlisted then rest else (a, v) :: rest)
    else (b, w) :: Memory.write rest a v

/-- The canonical form holds. -/
def Memory.wf : Memory → Bool
  | [] => true
  | [(_, v)] => v != Memory.unlisted
  | (a, v) :: (b, w) :: rest => v != Memory.unlisted && decide (a < b) && Memory.wf ((b, w) :: rest)

/-- The address of a cell's first byte (R28). -/
def cellAddress (c : CellNo) : Nat := Config.cellBytes * c.val

/-- Where byte o of a copy lies: cell k of the list holds record bytes 16k to 16k + 15 (R32). -/
def recordAddress (cells : List CellNo) (o : Nat) : Option Nat :=
  cells[o / Config.cellBytes]?.map fun c => cellAddress c + o % Config.cellBytes

/-- Byte o of a copy. -/
def CellPool.peek (p : CellPool) (cells : List CellNo) (o : Nat) : Byte :=
  match recordAddress cells o with
  | some a => Memory.read p.bytes a
  | none => Memory.unlisted

/-- The pool with byte o of a copy written. -/
def CellPool.poke (p : CellPool) (cells : List CellNo) (o : Nat) (b : Byte) : CellPool :=
  match recordAddress cells o with
  | some a => { p with bytes := Memory.write p.bytes a b }
  | none => p

/-- The pool with some bytes of a copy written, from byte o onward. -/
def CellPool.writeRecord (cells : List CellNo) : CellPool → Nat → List Byte → CellPool
  | p, _, [] => p
  | p, o, b :: bs => CellPool.writeRecord cells (p.poke cells o b) (o + 1) bs

/-- Some bytes of a copy, from byte o onward. -/
def CellPool.readRecord (p : CellPool) (cells : List CellNo) (o count : Nat) : List Byte :=
  (List.range count).map fun i => p.peek cells (o + i)

/-! ## The free list (R29 to R31) -/

/-- Take cells from the head of the free list, all or none, in queue order (R30). -/
def CellPool.allocate (p : CellPool) (count : Nat) : Option (List CellNo × CellPool) :=
  if count ≤ p.free.length then some (p.free.take count, { p with free := p.free.drop count }) else none

/-- Append a copy's cells to the tail of the free list, in the copy's order (R31). -/
def CellPool.release (p : CellPool) (cells : List CellNo) : CellPool := { p with free := p.free ++ cells }

/-- Fill every byte of newly allocated cells with 00h (R30). -/
def CellPool.zero (p : CellPool) (cells : List CellNo) : CellPool :=
  CellPool.writeRecord cells p 0 (List.replicate (Config.cellBytes * cells.length) 0x00#8)

/-- Fill newly allocated cells with the bytes of an existing copy, cell for cell (R30). -/
def CellPool.copyFrom (p : CellPool) (source target : List CellNo) : CellPool :=
  CellPool.writeRecord target p 0 (p.readRecord source 0 (Config.cellBytes * source.length))

/-! ## Entries (chapter 1) -/

/-- The segment count S: L divided by 16 and rounded up (R3). -/
def segmentCount (length : Nat) : Nat := (length + 15) / 16

/-- The length of segment s: 16 but for the last (R94, R106). -/
def segmentSize (length s : Nat) : Nat :=
  if s + 1 < segmentCount length then 16 else length - 16 * (segmentCount length - 1)

/-- The segment count of an entry (R3). -/
def Entry.segments (x : Entry) : Nat := segmentCount x.length

/-- The length of an entry's segment s (R94, R106). -/
def Entry.segmentLength (x : Entry) (s : Nat) : Nat := segmentSize x.length s

/-- The state, role and L of an entry, as the decode's reply carries them (R97, R105). -/
def Entry.found (x : Entry) : Found := ⟨x.state, x.role, x.length⟩

/-- New current data: the age restarts at 0 and the entry is LIVE (R13). -/
def Entry.refresh (x : Entry) : Entry := { x with state := .live, age := 0 }

/-- Whether a tick advances the age (R56). A RETIRING entry retired from LIVE or STALE is one with a current copy. -/
def Entry.ageRuns (x : Entry) : Bool :=
  match x.state with
  | .live | .stale => true
  | .retiring => x.current.isSome
  | .vacant | .draft | .ended => false

/-- The age after a tick (R55, step 1); from here on an amended limit is used (R61). -/
def Entry.advance (x : Entry) : Entry :=
  { x with amended := false, age := if x.ageRuns then min (x.age + 1) Config.maxAge else x.age }

/-- A LIVE entry whose age is at or above its nonzero limit (R55, step 2). A limit amended since the last tick is used
from the next tick on (R61). -/
def Entry.expires (x : Entry) : Bool :=
  decide (x.state = .live ∧ x.amended = false ∧ x.limit ≠ 0 ∧ x.limit ≤ x.age)

/-- What a tick makes of an entry (R55, R58). -/
def Entry.ticked (x : Entry) : Entry :=
  if x.advance.expires then { x.advance with state := .stale } else x.advance

/-- An entry of the table. -/
def TableController.entry (t : TableController) (e : EntryNo) : Entry := t.entries[e.val]

/-- The table with one entry written. -/
def TableController.setEntry (t : TableController) (e : EntryNo) (x : Entry) : TableController :=
  { t with entries := t.entries.set e.val x }

/-- The entry the Handle Index gives a handle (R10). -/
def TableController.lookup (t : TableController) (h : Handle) : Option EntryNo := t.index[h.toNat]'h.isLt

/-- The table with one place of the Handle Index written (R9). -/
def TableController.setIndex (t : TableController) (h : Handle) (e : Option EntryNo) : TableController :=
  { t with index := t.index.set h.toNat e h.isLt }

/-- The lowest-numbered VACANT entry (R16). -/
def TableController.firstVacant (t : TableController) : Option EntryNo :=
  (List.finRange 128).find? fun e => decide ((t.entry e).state = .vacant)

/-- An entry of the machine. -/
def State.entry (s : State) (e : EntryNo) : Entry := s.table.entry e

/-- The machine with one entry written. -/
def State.setEntry (s : State) (e : EntryNo) (x : Entry) : State := { s with table := s.table.setEntry e x }

/-- The machine with the in-flight mark written (R12). -/
def State.setInFlight (s : State) (m : Option EntryNo) : State := { s with table := { s.table with inFlight := m } }

/-- The machine with the pin written (R43). -/
def State.setPin (s : State) (p : Option Pin) : State := { s with table := { s.table with pin := p } }

/-- The pin-held flag of the frame context: the pin's owner is the frame (R102, R44). -/
def State.framePinHeld (s : State) : Bool :=
  match s.table.pin with
  | some p => decide (p.owner = .frame)
  | none => false

/-- The machine with the sequence context written (R111). -/
def State.setSeq (s : State) (q : Option SequenceContext) : State := { s with line := { s.line with seq := q } }

/-- The machine with the frame phase written (R101). -/
def State.setPhase (s : State) (p : Phase) : State := { s with line := { s.line with phase := p } }

/-- A frame is in flight when the phase is SPACE, ANSWERING or RECEIVING (R12, R146). -/
def Phase.inFlight : Phase → Bool
  | .space | .answering | .receiving => true
  | .waiting | .inBreak | .header | .skipping | .recovering => false

/-! ## The Attention Unit (chapter 9) -/

/-- An entry's attention record. -/
def AttentionUnit.record (u : AttentionUnit) (e : EntryNo) : AttentionRecord := u.records[e.val]

/-- The unit with one attention record written. -/
def AttentionUnit.setRecord (u : AttentionUnit) (e : EntryNo) (r : AttentionRecord) : AttentionUnit :=
  { u with records := u.records.set e.val r }

/-- ATTN is asserted exactly when the list or the condition set is nonempty (R164). -/
def AttentionUnit.drive (u : AttentionUnit) : AttentionUnit :=
  { u with attn := !u.list.isEmpty || u.conditions != 0#8 }

/-- A record that has taken a posting: causes in the mask join the set, unless posting is CLOSED (R156). -/
def AttentionRecord.keep (r : AttentionRecord) (c : CauseSet) : AttentionRecord :=
  match r.posting with
  | .closed => r
  | .opened | .ending => { r with causes := r.causes ||| (c &&& r.mask) }

/-- Whether a posting made an empty cause set nonempty (R156). -/
def becameNonempty (before after : AttentionRecord) : Bool := before.causes == 0#13 && after.causes != 0#13

/-- One posting (R156): the set grows, and an entry whose set was empty joins the tail of the list. -/
def AttentionUnit.post (u : AttentionUnit) (e : EntryNo) (c : CauseSet) : AttentionUnit :=
  let r := (u.record e).keep c
  { u.setRecord e r with list := if becameNonempty (u.record e) r then u.list ++ [e] else u.list }.drive

/-- A posting of one cause against an entry. -/
def State.post (s : State) (e : EntryNo) (c : Cause) : State :=
  { s with attention := s.attention.post e c.set }

/-- Put an entry into a list ordered by the free rank of tick k (log 7). -/
def insertByRank (k : Nat) (e : EntryNo) : List EntryNo → List EntryNo
  | [] => [e]
  | x :: xs => if Config.postRank k e.val ≤ Config.postRank k x.val then e :: x :: xs else x :: insertByRank k e xs

/-- The entries that join the attention list at tick k, in the free order (log 7). -/
def arrange (k : Nat) : List EntryNo → List EntryNo
  | [] => []
  | e :: es => insertByRank k e (arrange k es)

/-- The postings of one tick (R58, R73, R150): every set grows as R156 gives, and the entries whose sets became
nonempty join the tail of the list in an order the spec does not give (log 7). -/
def AttentionUnit.postTick (u : AttentionUnit) (k : Nat) (ps : List (EntryNo × CauseSet)) : AttentionUnit :=
  let v := ps.foldl (fun w p => w.setRecord p.1 ((w.record p.1).keep p.2)) u
  let fresh := (List.finRange 128).filter fun e => becameNonempty (u.record e) (v.record e)
  { v with list := u.list ++ arrange k fresh, attn := !(u.list ++ fresh).isEmpty || u.conditions != 0#8 }

/-- A line condition set: sticky (R162). -/
def State.setCondition (s : State) (c : LineCondition) : State :=
  { s with attention := { s.attention with conditions := s.attention.conditions ||| c.set }.drive }

/-- A clearing (R160): the cause set emptied, the entry off the list, posting CLOSED. -/
def AttentionUnit.clear (u : AttentionUnit) (e : EntryNo) : AttentionUnit :=
  { u.setRecord e { u.record e with posting := .closed, causes := 0#13 } with
    list := u.list.filter fun x => decide (x ≠ e) }.drive

/-- A clearing of an entry. -/
def State.clear (s : State) (e : EntryNo) : State := { s with attention := s.attention.clear e }

/-- The posting state of an entry written (R155). -/
def State.setPosting (s : State) (e : EntryNo) (p : PostingState) : State :=
  { s with attention := s.attention.setRecord e { s.attention.record e with posting := p } }

/-- The notify mask of an entry written (R161). -/
def State.setMask (s : State) (e : EntryNo) (m : CauseSet) : State :=
  { s with attention := s.attention.setRecord e { s.attention.record e with mask := m } }

/-! ## Freeing copies and releasing the pin (R31, R46) -/

/-- Free an entry's current copy, if there is one (R31). -/
def State.freeCurrent (s : State) (e : EntryNo) : State :=
  match (s.entry e).current with
  | none => s
  | some cells => { s.setEntry e { s.entry e with current := none } with pool := s.pool.release cells }

/-- Free an entry's staged copy, if there is one (R31). -/
def State.freeStaged (s : State) (e : EntryNo) : State :=
  match (s.entry e).staged with
  | none => s
  | some cells => { s.setEntry e { s.entry e with staged := none } with pool := s.pool.release cells }

/-- Free an entry's held copy, if there is one; its version is discarded (R31). -/
def State.freeHeld (s : State) (e : EntryNo) : State :=
  match (s.entry e).held with
  | none => s
  | some h => { s.setEntry e { s.entry e with held := none } with pool := s.pool.release h.cells }

/-- Release the pin: a held copy under it is freed, a current copy stays as it is (R46). -/
def State.releasePin (s : State) : State :=
  match s.table.pin with
  | none => s
  | some p =>
    match p.kind with
    | .current => s.setPin none
    | .held => (s.setPin none).freeHeld p.entry

/-- Close the open sequence, if there is one (R105, step 1): SERVE releases the pin, ASSEMBLE frees the staged copy.
No cause is posted here. -/
def State.closeSequence (s : State) : State :=
  match s.line.seq with
  | none => s
  | some q =>
    match q.kind with
    | .serve => s.releasePin.setSeq none
    | .assemble => (s.freeStaged q.entry).setSeq none

/-- Close the open sequence early, if there is one, and post SEG_BROKEN against its entry (R114). -/
def State.breakSequence (s : State) : State :=
  match s.line.seq with
  | none => s
  | some q => s.closeSequence.post q.entry .segBroken

/-! ## The Claim Table (chapter 4) -/

/-- A claim slot. -/
def ClaimTable.slot (c : ClaimTable) (k : SlotNo) : Slot := c.slots[k.val]

/-- The table with one slot written. -/
def ClaimTable.setSlot (c : ClaimTable) (k : SlotNo) (x : Slot) : ClaimTable :=
  { c with slots := c.slots.set k.val x }

/-- The machine with one slot written. -/
def State.setSlot (s : State) (k : SlotNo) (x : Slot) : State := { s with claims := s.claims.setSlot k x }

/-- Whether a slot names an entry (R67). -/
def Slot.names (x : Slot) (e : EntryNo) : Bool :=
  match x with
  | .free => false
  | .reserved d _ _ _ => decide (d = e)
  | .heldLine d _ _ => decide (d = e)
  | .heldHost d => decide (d = e)

/-- Whether a slot is RESERVED (R67). -/
def Slot.isReserved : Slot → Bool
  | .reserved _ _ _ _ => true
  | .free | .heldLine _ _ _ | .heldHost _ => false

/-- The slot that names an entry (R67). -/
def ClaimTable.slotOf (c : ClaimTable) (e : EntryNo) : Option SlotNo :=
  (List.finRange 8).find? fun k => (c.slot k).names e

/-- The lowest-numbered FREE slot (R67). -/
def ClaimTable.firstFree (c : ClaimTable) : Option SlotNo :=
  (List.finRange 8).find? fun k => decide (c.slot k = .free)

/-- The one RESERVED slot (R67). -/
def ClaimTable.reservedSlot (c : ClaimTable) : Option SlotNo :=
  (List.finRange 8).find? fun k => (c.slot k).isReserved

/-- The claim on an entry: the slot's contents, FREE when no slot names it. -/
def ClaimTable.claimOf (c : ClaimTable) (e : EntryNo) : Slot :=
  match c.slotOf e with
  | some k => c.slot k
  | none => .free

/-- Free the slot that names an entry, with no cause (R22, step 3). -/
def ClaimTable.freeClaim (c : ClaimTable) (e : EntryNo) : ClaimTable :=
  { c with slots := c.slots.map fun x => if x.names e then .free else x }

/-- Whether a slot names the entry, of either origin: the CLAIMED bit (R83). -/
def ClaimTable.claimed (c : ClaimTable) (e : EntryNo) : Bool := (c.slotOf e).isSome

/-- The claim byte of a PROBE answer (R83). -/
def ClaimTable.claimByte (c : ClaimTable) (e : EntryNo) : Byte :=
  match c.claimOf e with
  | .free => 0x00#8
  | .heldHost _ => 0x10#8
  | .reserved _ t _ _ => 0x20#8 + t.zeroExtend 8
  | .heldLine _ t _ => 0x20#8 + t.zeroExtend 8

/-- Whether the claim check blocks a line STORE or line RETIRE with this tag (R80). -/
def ClaimTable.blocksLine (c : ClaimTable) (e : EntryNo) (t : Tag) : Bool :=
  match c.claimOf e with
  | .free => false
  | .heldHost _ => true
  | .reserved _ u _ _ => decide (u ≠ t)
  | .heldLine _ u _ => decide (u ≠ t)

/-- Whether the claim check refuses a COMMIT: a slot of origin LINE names the entry (R80, R38). -/
def ClaimTable.blocksCommit (c : ClaimTable) (e : EntryNo) : Bool :=
  match c.claimOf e with
  | .free | .heldHost _ => false
  | .reserved _ _ _ _ | .heldLine _ _ _ => true

/-- The decision of a line CLAIM (R69): the code, the cause it posts if any, and the table after it. A RESERVED slot
of the header's own tag cannot be met (log 16); it is left as it is. -/
def ClaimTable.decideClaim (c : ClaimTable) (claimOk : Bool) (e : EntryNo) (t : Tag) :
    AnswerCode × Option Cause × ClaimTable :=
  if claimOk = false ∨ t = 0#4 then (.notPermitted, some .denied, c)
  else match c.slotOf e with
    | some k => match c.slot k with
      | .heldHost _ => (.heldByOther, some .denied, c)
      | .heldLine _ u lease =>
        if u = t then (.renewed, none, c.setSlot k (.reserved e t lease true)) else (.heldByOther, some .denied, c)
      | .reserved _ u _ _ => if u = t then (.renewed, none, c) else (.heldByOther, some .denied, c)
      | .free => (.claimsFull, none, c)
    | none => match c.firstFree with
      | some k => (.granted, none, c.setSlot k (.reserved e t 0 false))
      | none => (.claimsFull, none, c)

/-- The decision of a line RELEASE (R75): no slot changes. -/
def ClaimTable.decideRelease (c : ClaimTable) (e : EntryNo) (t : Tag) : AnswerCode :=
  match c.claimOf e with
  | .heldLine _ u _ => if u = t then .released else .notHolder
  | .free | .reserved _ _ _ _ | .heldHost _ => .notHolder

/-- The end of a complete CLAIM answer (R70). -/
def State.claimAnswered (s : State) : State :=
  match s.claims.reservedSlot with
  | none => s
  | some k => match s.claims.slot k with
    | .reserved e t _ renewal =>
      if (s.entry e).state = .retiring then s
      else if renewal then s.setSlot k (.heldLine e t s.claims.lease)
      else (s.setSlot k (.heldLine e t s.claims.lease)).post e .claimTaken
    | .free | .heldLine _ _ _ | .heldHost _ => s

/-- The end of a CLAIM frame that failed (R71): the reservation goes, and a renewal ends its claim. -/
def State.claimFailed (s : State) : State :=
  match s.claims.reservedSlot with
  | none => s
  | some k => match s.claims.slot k with
    | .reserved e _ _ renewal =>
      if renewal then (s.setSlot k .free).post e .claimEnded else s.setSlot k .free
    | .free | .heldLine _ _ _ | .heldHost _ => s

/-- The end of a complete RELEASED answer (R76): the slot that is still HELD by LINE under the tag becomes FREE. -/
def State.releaseAnswered (s : State) (e : EntryNo) (t : Tag) : State :=
  match s.claims.slotOf e with
  | none => s
  | some k => match s.claims.slot k with
    | .heldLine _ u _ =>
      if u = t ∧ (s.entry e).state ≠ .retiring then (s.setSlot k .free).post e .claimEnded else s
    | .free | .reserved _ _ _ _ | .heldHost _ => s

/-! ## Leaving the table (R22 to R27) -/

/-- The pin's mark removed, if it is on the entry (R22, step 1). -/
def State.dropPin (s : State) (e : EntryNo) : State :=
  match s.table.pin with
  | some p => if p.entry = e then s.setPin none else s
  | none => s

/-- The entry's sequence closed with no cause, if one is open (R22, step 1). -/
def State.dropSequence (s : State) (e : EntryNo) : State :=
  match s.line.seq with
  | some q => if q.entry = e then s.setSeq none else s
  | none => s

/-- Tear an entry down (R22): the pin's mark and the entry's sequence go with no cause; the current, staged and held
copies are freed in that order; its claim slot is freed; its pair leaves the Handle Index. -/
def State.teardown (s : State) (e : EntryNo) : State :=
  let s := ((((s.dropPin e).dropSequence e).freeCurrent e).freeStaged e).freeHeld e
  let s := { s with claims := s.claims.freeClaim e }
  if s.table.lookup (s.entry e).handle = some e then
    { s with table := s.table.setIndex (s.entry e).handle none }
  else s

/-- An entry made VACANT (R11, R23, R25, R27). -/
def State.vacate (s : State) (e : EntryNo) : State := s.setEntry e Entry.vacant

/-- A line RETIRE takes effect (R26): torn down, age 0, ENDED, posting ENDING, RETIRED posted. -/
def State.endEntry (s : State) (e : EntryNo) : State :=
  let s := s.teardown e
  let s := s.setEntry e { s.entry e with state := .ended, age := 0 }
  (s.setPosting e .ending).post e .retired

/-! ## The Host Port (chapter 10) -/

/-- A command completes (R169, R173): the slot takes its reply and READY is asserted. With CS low the port stays
WORKING_BUSY until the rise of CS; otherwise it is IDLE (R168). -/
def State.complete (s : State) (status : Status) (data : List Byte) : State :=
  { s with host := { s.host with
      slot := ⟨status, data⟩
      ready := true
      work := none
      state := if s.host.state = .workingBusy then .workingBusy else .idle } }

/-- A command outstanding at the Host Port, which is WORKING with READY deasserted (R168). -/
def State.setWork (s : State) (w : Work) : State :=
  { s with host := { s.host with
      ready := false
      work := some w
      state := if s.host.state = .workingBusy then .workingBusy else .working } }

/-- A host command's row (log 4). When the port has handed this very command to its block, the block takes it now.
When the port is IDLE, the row is the whole command: a transaction that carries its frame, the Host Port's own
checks (R173), and its taking. Otherwise it meets a BUSY transaction, or CS already low, and is not taken (R170). -/
def State.runCommand (s : State) (i : Instr) (effect : State → State) : State :=
  if s.host.work = some (.handed i) then effect s
  else if s.host.state = .idle then
    match portRefusal i with
    | some status => s.complete status []
    | none => effect (s.setWork (.handed i))
  else s

/-- The checks every record command makes first on its entry number (R19); `late` for DESCRIBE and RETIRE. -/
def State.checkEntry (s : State) (late : Bool) (b : Byte) : Except Status EntryNo :=
  if h : b.toNat < 128 then
    match (s.entry ⟨b.toNat, h⟩).state with
    | .vacant => .error .noEntry
    | .retiring | .ended => if late then .ok ⟨b.toNat, h⟩ else .error .wrongState
    | .draft | .live | .stale => .ok ⟨b.toNat, h⟩
  else .error .badArgument

/-- A command that names an entry: refused by R19's checks, or carried out on the entry. -/
def State.withEntry (s : State) (late : Bool) (b : Byte) (effect : EntryNo → State) : State :=
  match s.checkEntry late b with
  | .error status => s.complete status []
  | .ok e => effect e

end Sys2Proof.Machine
end

