-- ==== Sys2Proof/Machine/Frames.lean ====
section
/-! DEFINITION. The shared operations of the Line Unit: changes of mode and phase, what the end of a frame hands to
the other blocks (R103, section 6.9), and the decode of a good header (R104 to R108, R118 to R121). -/

namespace Sys2Proof.Machine

/-! ## Leaving and entering LISTEN (R147, R149, R150) -/

/-- The Line Unit out of LISTEN in a new mode (R147, steps 2 to 4): timers stopped, the frame context clear, the
phase WAITING. -/
def LineUnit.quit (l : LineUnit) (m : LineMode) : LineUnit :=
  { l with
    mode := m
    phase := .waiting
    frame := {}
    landing := []
    header := []
    assembling := false
    startSeen := false
    edge := false
    breakSeen := false
    runBefore := false
    collided := false
    rouseSeen := false
    txd := .released
    idle := none
    idlePending := false }

/-- Steps 2 to 4 of R147. -/
def State.quitListen (s : State) (m : LineMode) : State := { s with line := s.line.quit m }

/-- The part leaves LISTEN with no frame in flight (R147): an open sequence closes with SEG_BROKEN. -/
def State.leaveListen (s : State) (m : LineMode) : State := s.breakSequence.quitListen m

/-- The Line Unit at entry to LISTEN in a phase (R149). A dominant run may be under way, which is no break (R89). -/
def LineUnit.enter (l : LineUnit) (p : Phase) : LineUnit :=
  { l.quit .listen with phase := p, runBefore := true, seq := none, idle := some 0 }

/-- Entry to LISTEN (R149). -/
def State.enterListen (s : State) (p : Phase) : State := { s with line := s.line.enter p }

/-- The phases in which an idle expiry is acted on at once (R150). -/
def Phase.quiet : Phase → Bool
  | .waiting | .skipping | .recovering => true
  | .inBreak | .header | .space | .answering | .receiving => false

/-- A deferred idle expiry is settled when the phase is WAITING, SKIPPING or RECOVERING (R150). -/
def State.settleIdle (s : State) : State :=
  if s.line.mode = .listen ∧ s.line.idlePending = true ∧ s.line.phase.quiet = true then s.leaveListen .dormant else s

/-- The phase becomes WAITING, SKIPPING or RECOVERING, and a deferred idle expiry is settled (R101, R150). -/
def State.enterQuiet (s : State) (p : Phase) : State :=
  { s with line := { s.line with
      phase := p, assembling := false, edge := false, breakSeen := false, runBefore := false, collided := false
      txd := .released } }.settleIdle

/-- A break is recognised (R90): a new frame context, the phase IN_BREAK, the idle timer restarted and a deferred
expiry dropped (R150). -/
def State.newFrame (s : State) : State :=
  { s with line := { s.line with
      phase := .inBreak
      frame := {}
      assembling := false
      edge := false
      breakSeen := true
      runBefore := false
      collided := false
      txd := .released
      idle := some 0
      idlePending := false } }

/-! ## The request for the answer (R69, R75, R108, R118 to R121) -/

/-- The pin at a FETCH answer (R44): an expected continuation passes the pin to the frame; any other FETCH places it
on the current copy. -/
def State.placePin (s : State) (e : EntryNo) (continuation : Bool) : State :=
  match s.table.pin with
  | some p =>
    if continuation = true then s.setPin (some { p with owner := .frame }) else s.setPin (some ⟨e, .current, .frame⟩)
  | none => s.setPin (some ⟨e, .current, .frame⟩)

/-- The version of the pinned copy (R44, R108). -/
def State.pinnedVersion (s : State) (e : EntryNo) : Version :=
  match s.table.pin with
  | some ⟨_, .held, _⟩ =>
    match (s.entry e).held with
    | some h => h.version
    | none => (s.entry e).version
  | _ => (s.entry e).version

/-- The cells of the pinned copy (R44, R109). -/
def State.pinnedCells (s : State) (e : EntryNo) : List CellNo :=
  match s.table.pin with
  | some ⟨_, .held, _⟩ =>
    match (s.entry e).held with
    | some h => h.cells
    | none => (s.entry e).current.getD []
  | _ => (s.entry e).current.getD []

/-- The reply of the answer request of a FETCH: the tag byte (R108). -/
def State.fetchReply (s : State) (e : EntryNo) : List Byte :=
  [tagByte (s.claims.claimed e) (decide ((s.entry e).state = .stale)) (s.pinnedVersion e)]

/-- The reply of the answer request of a PROBE: bytes 0 to 3 (R120). -/
def State.probeReply (s : State) (e : EntryNo) : List Byte :=
  [BitVec.ofNat 8 (s.entry e).length, (s.entry e).state.code, (s.entry e).version.zeroExtend 8, s.claims.claimByte e]

/-- The answer request's reply, kept in the frame context. -/
def State.setReply (s : State) (bs : List Byte) : State :=
  { s with line := { s.line with frame := { s.line.frame with reply := bs } } }

/-- The decided code, kept in the frame context (R102). -/
def State.setCode (s : State) (c : AnswerCode) : State :=
  { s with line := { s.line with frame := { s.line.frame with code := some c } } }

/-- The code of a line RETIRE (R121). -/
def State.retireCode (s : State) (e : EntryNo) (tag : Tag) : AnswerCode :=
  if (s.entry e).permits.retireOk = true ∧ s.claims.blocksLine e tag = false then .retired else .refused

/-- The decision of a line CLAIM at the Claim Table, with the cause it posts (R69, R118). -/
def State.decideClaim (s : State) (e : EntryNo) (tag : Tag) : State :=
  let d := s.claims.decideClaim (s.entry e).permits.claimOk e tag
  let s := { s with claims := d.2.2 }.setCode d.1
  match d.2.1 with
  | some c => s.post e c
  | none => s

/-- The code of a line RETIRE, decided within the decode request, and DENIED for a refusal (R105, R121). -/
def State.decideRetire (s : State) (e : EntryNo) (tag : Tag) : State :=
  let c := s.retireCode e tag
  if c = .refused then (s.setCode c).post e .denied else s.setCode c

/-- The request that an answer needs, taken whole by its block: the pin and the reply of a FETCH, the reply of a PROBE,
the decision of a CLAIM or a RELEASE (R69, R75, R108, R120). An expected continuation is the frame that finds its
sequence still open (R104). -/
def State.answerRequest (s : State) (e : EntryNo) (action : Action) (tag : Tag) : State :=
  match action with
  | .fetch =>
    let s := s.placePin e s.line.seq.isSome
    s.setReply (s.fetchReply e)
  | .probe => s.setReply (s.probeReply e)
  | .claim => s.decideClaim e tag
  | .release => s.setCode (s.claims.decideRelease e tag)
  | .retire => s
  | .store => s

/-- Whether the request for the answer is sent and not yet taken (R105, R108). -/
def State.setAsking (s : State) (waiting : Bool) : State :=
  { s with line := { s.line with frame := { s.line.frame with asking := waiting } } }

/-- A waiting request for the answer is taken, and sees every block as it stands now (R66, R108, R120). -/
def State.serveRequest (s : State) : State :=
  if s.line.phase = .space ∧ s.line.frame.asking = true then
    match s.line.frame.entry, s.line.frame.action, s.line.frame.tag with
    | some e, some a, some t => (s.setAsking false).answerRequest e a t
    | _, _, _ => s.setAsking false
  else s

/-! ## Data from the line (section 2.6) -/

/-- An accepted STORE (R48, R49): the current copy overwritten in place, or made in one cell, or the data lost. -/
def State.applyStore (s : State) (e : EntryNo) (data : List Byte) : State :=
  let x := s.entry e
  match x.current with
  | some cells =>
    ({ s.setEntry e { x.refresh with version := x.version + 1 } with
        pool := CellPool.writeRecord cells s.pool 0 data }).post e .updated
  | none =>
    match s.pool.allocate 1 with
    | none => s.post e .dropped
    | some (cells, p) =>
      ({ s.setEntry e { x.refresh with version := x.version + 1, current := some cells } with
          pool := CellPool.writeRecord cells (p.zero cells) 0 data }).post e .updated

/-- The acceptance of landed STORE data (R116): STORE_OK, then the claim check of R80, then the data. -/
def State.acceptStore (s : State) (e : EntryNo) : State :=
  let x := s.entry e
  if x.permits.storeOk = false ∨ s.claims.blocksLine e (s.line.frame.tag.getD 0) = true then s.post e .denied
  else s.applyStore e (s.line.landing.take x.length)

/-- What a completed capture with this tag byte makes of its MIRROR entry's fields (R51, R53, R63). -/
def Entry.captured (x : Entry) (t : Byte) (cells : List CellNo) : Entry :=
  { x.refresh with
    version := tagVersion t, staleSeen := tagStale t, claimedSeen := tagClaimed t, current := some cells }

/-- A good single-segment capture (R51, R124). -/
def State.applyCapture (s : State) (e : EntryNo) (data : List Byte) (t : Byte) : State :=
  let x := s.entry e
  match x.current with
  | some cells =>
    ({ s.setEntry e (x.captured t cells) with pool := CellPool.writeRecord cells s.pool 0 data }).post e .updated
  | none =>
    match s.pool.allocate 1 with
    | none => s.post e .dropped
    | some (cells, p) =>
      ({ s.setEntry e (x.captured t cells) with
          pool := CellPool.writeRecord cells (p.zero cells) 0 data }).post e .updated

/-- A good capture of segment 0 of a MIRROR with S above 1 (R52, R125): a staged copy and an ASSEMBLE sequence, or
the data lost. -/
def State.openAssembly (s : State) (e : EntryNo) (data : List Byte) (t : Byte) : State :=
  let x := s.entry e
  match s.pool.allocate x.segments with
  | none => s.post e .dropped
  | some (cells, p) =>
    { s.setEntry e { x with staged := some cells } with
        pool := CellPool.writeRecord cells (p.zero cells) 0 data
        line := { s.line with seq := some ⟨.assemble, x.handle, e, 1, some (tagVersion t), some s.line.hold⟩ } }

/-- A good capture of the expected segment before the last, at the same version (R52, R126). -/
def State.continueAssembly (s : State) (e : EntryNo) (q : SequenceContext) (data : List Byte) : State :=
  { s with
      pool := CellPool.writeRecord ((s.entry e).staged.getD []) s.pool (16 * q.next) data
      line := { s.line with seq := some { q with next := q.next + 1, hold := some s.line.hold } } }

/-- A good capture of the last segment, at the same version (R53, R126): written, the old current copy freed, the
staged copy made current. -/
def State.completeAssembly (s : State) (e : EntryNo) (q : SequenceContext) (data : List Byte) (t : Byte) : State :=
  let cells := (s.entry e).staged.getD []
  let s := ({ s with pool := CellPool.writeRecord cells s.pool (16 * q.next) data }).freeCurrent e
  let s := s.setEntry e { (s.entry e).captured t cells with staged := none }
  (s.post e .updated).setSeq none

/-- A good capture of a MIRROR entry (R124 to R126). The landing buffer holds the data bytes, the tag byte and the
check. -/
def State.captureGood (s : State) (e : EntryNo) : State :=
  let size := s.line.landing.length - 2
  let data := s.line.landing.take size
  let t := s.line.landing.getD size 0x00#8
  if (s.entry e).segments ≤ 1 then s.applyCapture e data t
  else match s.line.seq with
    | none => s.openAssembly e data t
    | some q =>
      if q.version ≠ some (tagVersion t) then s.breakSequence
      else if q.next + 1 < (s.entry e).segments then s.continueAssembly e q data
      else s.completeAssembly e q data t

/-! ## The end of a frame in flight (R103) -/

/-- How a frame in flight ended (R103). -/
inductive FrameEnd where
  /-- The answer was sent to its last stop bit with every readback sample matching. -/
  | completed
  /-- The response was received in full with a good check. -/
  | received
  /-- The response failed: a check fault, a framing fault, NO_ANSWER or OVERTIME. -/
  | faulty
  /-- Dominant level in the space, or a readback mismatch. -/
  | collided
  /-- A break was recognised in RECEIVING with no earlier fault. -/
  | cut
  /-- SET_MODE OFFLINE. -/
  | abandoned
  deriving DecidableEq, Repr

/-- The SERVE sequence a completed answer below the last segment leaves open; the pin passes to it (R45, R110). -/
def State.openServe (s : State) (e : EntryNo) (segment : Nat) : State :=
  { s.setPin (s.table.pin.map fun p => { p with owner := .sequence }) with
    line := { s.line with
      seq := some ⟨.serve, (s.entry e).handle, e, segment + 1, none, some s.line.hold⟩ } }

/-- The end of a FETCH answer on an entry that is not RETIRING (R45, R110). The sequence context is OPEN at a frame's
end exactly when the frame was its expected continuation (R104, R105). -/
def State.fetchAnswered (s : State) (how : FrameEnd) (e : EntryNo) : State :=
  let segment := (s.line.frame.segment.getD 0).toNat
  if how = .completed then
    if segment + 1 < (s.entry e).segments then s.openServe e segment else s.releasePin.setSeq none
  else s.releasePin.breakSequence

/-- The report to the Claim Table, for a CLAIM or RELEASE frame (R103, R70, R71, R76). -/
def State.reportToClaims (s : State) (how : FrameEnd) (e : EntryNo) : State :=
  match s.line.frame.action with
  | some .claim => if how = .completed then s.claimAnswered else s.claimFailed
  | some .release =>
    if how = .completed ∧ s.line.frame.code = some .released then
      s.releaseAnswered e (s.line.frame.tag.getD 0)
    else s
  | some .fetch | some .store | some .probe | some .retire | none => s

/-- The report to the Table Controller (R103): a RETIRING entry is torn down to VACANT (R25); otherwise the frame is
settled by its action (section 6.9). -/
def State.reportToTable (s : State) (how : FrameEnd) (e : EntryNo) : State :=
  if (s.entry e).state = .retiring then (s.teardown e).vacate e
  else match s.line.frame.action with
    | some .fetch =>
      match (s.entry e).role with
      | .source => s.fetchAnswered how e
      | .mirror => if how = .received then s.captureGood e else s.breakSequence
    | some .store => if how = .received then s.acceptStore e else s
    | some .retire =>
      if how = .completed ∧ s.line.frame.code = some .retired then s.endEntry e else s
    | some .claim | some .release | some .probe | none => s

/-- The reports of the end of the frame in flight (R103): the in-flight mark goes, and each block whose state the frame
holds is told how it ended. What has landed is handed over or goes unused; the buffer's fill stands until the next
decode to RECEIVING (R102). -/
def State.reportEnd (s : State) (how : FrameEnd) : State :=
  match s.line.frame.entry with
  | none => s.setInFlight none
  | some e => ((s.reportToClaims how e).setInFlight none).reportToTable how e

/-- The end of the frame in flight: a request for the answer that still waits is taken before the reports, since the
requests of one block are taken in the order sent (R66, R131). -/
def State.frameEnd (s : State) (how : FrameEnd) : State := s.serveRequest.reportEnd how

/-- A cause posted against the entry of the frame context (R142). -/
def State.postFrame (s : State) (c : Cause) : State :=
  match s.line.frame.entry with
  | none => s
  | some e => s.post e c

/-- The frame in flight ends as collided and COLLIDED is posted (R131, R132). -/
def State.frameCollided (s : State) : State := (s.frameEnd .collided).postFrame .collided

/-- The frame in flight is abandoned by SET_MODE OFFLINE (R148): reported, ABANDONED set, the mode OFFLINE. R148 goes
through steps 2 to 4 of R147 because no sequence is open by then; step 1 then finds none to close. -/
def State.abandonFrame (s : State) : State :=
  ((s.frameEnd .abandoned).setCondition .abandoned).leaveListen .offline

/-- A reception ends in a fault (R134 to R136): the frame is reported faulty, the cause posted, the phase SKIPPING. -/
def State.receptionFault (s : State) (c : Cause) : State :=
  ((s.frameEnd .faulty).postFrame c).enterQuiet .skipping

/-- A header fault (R129, R130): its condition, the close of an open sequence with SEG_BROKEN, the phase SKIPPING. -/
def State.headerFault (s : State) (c : LineCondition) : State :=
  ((s.setCondition c).breakSequence).enterQuiet .skipping

/-! ## The decode of a good header (R104 to R108, R118 to R121) -/

/-- What the Table Controller chooses for a frame (R105, R106). -/
inductive Path where
  /-- Not answered and not received; a cause to post at decode against the entry found, if any. -/
  | skip (cause : Option (EntryNo × Cause))
  /-- The part answers with n characters. -/
  | answer (entry : EntryNo) (n : Nat)
  /-- The part receives n characters. -/
  | receive (entry : EntryNo) (n : Nat)
  deriving DecidableEq, Repr

/-- The path table (R106), on the entry the lookup names and what it found of it. A lookup finds DRAFT, LIVE or STALE;
any other state cannot be met and is skipped (log 16). -/
def choosePath (entry : Option EntryNo) (found : Option Found) (action : Action) (tag : Tag) (continuation : Bool) :
    Path :=
  match entry, found with
  | none, _ => .skip none
  | _, none => .skip none
  | some e, some x =>
    if x.state ≠ .draft ∧ x.state ≠ .live ∧ x.state ≠ .stale then .skip none
    else match x.role, action with
      | .source, .fetch =>
        if segmentCount x.length ≤ tag.toNat then .skip (some (e, .badSegment))
        else if x.state = .draft then .skip none
        else .answer e (segmentSize x.length tag.toNat + 2)
      | .mirror, .fetch =>
        if segmentCount x.length ≤ tag.toNat then .skip (some (e, .badSegment))
        else if tag = 0#4 ∨ continuation = true then .receive e (segmentSize x.length tag.toNat + 2)
        else .skip none
      | .source, .store => if x.length ≤ 16 then .receive e (x.length + 1) else .skip (some (e, .denied))
      | .source, .claim => .answer e 2
      | .source, .release => .answer e 2
      | .source, .probe => .answer e 5
      | .source, .retire => .answer e 2
      | .mirror, .store => .skip none
      | .mirror, .claim => .skip none
      | .mirror, .release => .skip none
      | .mirror, .probe => .skip none
      | .mirror, .retire => .skip none

/-- Whether a header is the expected continuation of the open sequence (R104). -/
def LineUnit.isContinuation (l : LineUnit) (handle : Handle) (action : Action) (tag : Tag) : Bool :=
  match l.seq with
  | none => false
  | some q => decide (action = .fetch ∧ handle = q.handle ∧ tag.toNat = q.next)

/-- The sequence context at a header (R104, R105 step 1): an expected continuation clears the hold deadline, any
other header closes the sequence. SEG_BROKEN is posted afterwards (R105). -/
def State.meetSequence (s : State) (continuation : Bool) : State :=
  if continuation = true then s.setSeq (s.line.seq.map fun q => { q with hold := none }) else s.closeSequence

/-- The entry of a sequence the header closes, against which SEG_BROKEN is posted (R105). -/
def LineUnit.brokenBy (l : LineUnit) (continuation : Bool) : Option EntryNo :=
  if continuation = true then none else l.seq.map fun q => q.entry

/-- A cause posted against an entry, where there is one. -/
def State.postAt (s : State) (e : Option EntryNo) (c : Cause) : State :=
  match e with
  | none => s
  | some e => s.post e c

/-- The frame context's header fields, stored at a good header with the entry the lookup names and that entry's state,
role and L (R97, R102). -/
def FrameContext.atHeader (handle : Handle) (action : Action) (tag : Tag) (entry : Option EntryNo)
    (found : Option Found) : FrameContext :=
  { handle := some handle
    action := some action
    tag := some tag
    entry := entry
    found := found
    segment := if action = .fetch then some tag else none }

/-- The Line Unit's phase, n and window deadline for a frame that is answered or received (R97, R99), with the
in-flight mark set (R12, R105 step 4). -/
def State.startFrame (s : State) (p : Phase) (e : EntryNo) (n : Nat) : State :=
  { s.setInFlight (some e) with line := { s.line with
      phase := p
      assembling := false
      frame := { s.line.frame with n := some n, deadline := some (responseWindow n) } } }

/-- Whether a host command stands handed to its block and not yet taken (R173, log 5). -/
def Work.isHanded : Option Work → Bool
  | some (.handed _) => true
  | some .offline | some .rouse | some .restart | some (.vacate _ _) | none => false

/-- The request for the answer is sent (R98, R105). It is taken at once, but where a host command stands handed to its
block: then the spec lets either be taken first, and the order is drawn (log 10). -/
def State.sendRequest (s : State) : State :=
  if Work.isHanded s.host.work then
    let t := { s.setAsking true with requestCount := s.requestCount + 1 }
    if Config.requestWaits s.requestCount then t else t.serveRequest
  else (s.setAsking true).serveRequest

/-- A header on the answer path (R105, R108, R118 to R121): a RETIRE is decided within the decode; any other action sends
its request. -/
def State.enterSpace (s : State) (e : EntryNo) (action : Action) (tag : Tag) : State :=
  match action with
  | .retire => s.decideRetire e tag
  | .fetch | .store | .claim | .release | .probe => s.sendRequest

/-- The decode of a good header with one of the six actions (R97, R104, R105): the sequence, the lookup, the path, the
mark, then the causes of the decode and the request for the answer. -/
def State.decodeAction (s : State) (handle : Handle) (action : Action) (tag : Tag) : State :=
  let continuation := s.line.isContinuation handle action tag
  let broken := s.line.brokenBy continuation
  let s := s.meetSequence continuation
  let entry := s.table.lookup handle
  let found := entry.map fun e => (s.entry e).found
  let s := { s with line := { s.line with frame := FrameContext.atHeader handle action tag entry found } }
  match choosePath s.line.frame.entry s.line.frame.found action tag continuation with
  | .skip none => (s.postAt broken .segBroken).enterQuiet .skipping
  | .skip (some (e, c)) => ((s.postAt broken .segBroken).post e c).enterQuiet .skipping
  | .answer e n => ((s.startFrame .space e n).postAt broken .segBroken).enterSpace e action tag
  | .receive e n =>
    let s := (s.startFrame .receiving e n).postAt broken .segBroken
    { s with line := { s.line with landing := [], startSeen := false, edge := false } }

/-- HC received and good (R93): an action field of 6 or 7 is UNKNOWN_ACTION; any other header is decoded. -/
def State.decodeHeader (s : State) (h1 h2 : Byte) : State :=
  match Action.ofCode (headerAction h2) with
  | none => s.headerFault .unknownAction
  | some a => s.decodeAction (headerHandle h1 h2) a (headerTag h2)

/-- The characters of the part's own answer, check included (R109, R118 to R121). The check runs on from the header:
the check register holds its value after H2 (R96). -/
def State.answerCharacters (s : State) : List Byte :=
  match s.line.frame.entry, s.line.frame.action with
  | some e, some .fetch =>
    let segment := (s.line.frame.segment.getD 0).toNat
    withCheck s.line.check
      (s.pool.readRecord (s.pinnedCells e) (16 * segment) ((s.entry e).segmentLength segment) ++ s.line.frame.reply)
  | some _, some .probe => withCheck s.line.check s.line.frame.reply
  | _, _ => withCheck s.line.check ((s.line.frame.code.map AnswerCode.code).toList)

end Sys2Proof.Machine
end

