-- ==== Sys2Proof/Machine/LineCommands.lean ====
section
/-! DEFINITION. The host's line commands CONFIGURE, SET_MODE and ROUSE (R145 to R153), and the late completion of
SET_MODE OFFLINE (R148). -/

namespace Sys2Proof.Machine

/-! ## CONFIGURE (R145) -/

/-- The first check of R145, but for the rate code. -/
def configureInRange (holdTb lease : Half) : Bool :=
  decide (40 ≤ holdTb.toNat ∧ holdTb.toNat ≤ 4000 ∧ 10 ≤ lease.toNat ∧ lease.toNat ≤ 60000)

/-- CONFIGURE at the Line Unit (R145): BAD_ARGUMENT, then WRONG_MODE, then all four values at once. -/
def State.configure (s : State) (rate : Byte) (holdTb : Half) (idle : Byte) (lease : Half) : State :=
  match Rate.ofCode rate with
  | none => s.complete .badArgument []
  | some r =>
    if configureInRange holdTb lease = false then s.complete .badArgument []
    else if s.line.mode ≠ .offline then s.complete .wrongMode []
    else
      { s with
        line := { s.line with rate := r, hold := holdTb.toNat, idleLimit := idle.toNat }
        claims := { s.claims with lease := lease.toNat } }.complete .done []

/-- CONFIGURE. -/
def execConfigure (rate : Byte) (holdTb : Half) (idle : Byte) (lease : Half) (s : State) : Result :=
  .next (s.runCommand (.configure rate holdTb idle lease) fun s => s.configure rate holdTb idle lease)

/-! ## SET_MODE (R146 to R149) -/

/-- A command that ends in a mode: DONE with the resulting mode (R146). -/
def State.completeMode (s : State) (m : LineMode) : State := s.complete .done [m.code]

/-- SET_MODE taken in LISTEN (R146 to R148). -/
def State.setModeInListen (s : State) (m : LineMode) : State :=
  match m with
  | .listen => s.completeMode .listen
  | .dormant =>
    if s.line.phase.inFlight then s.complete .lineBusy [] else (s.leaveListen .dormant).completeMode .dormant
  | .offline =>
    if s.line.phase = .answering then s.setWork .offline
    else if s.line.phase.inFlight then s.abandonFrame.completeMode .offline
    else (s.leaveListen .offline).completeMode .offline
  | .rousing => s.complete .badArgument []

/-- SET_MODE taken in OFFLINE or DORMANT (R146): a mode that is not the present one drops a rouse being timed
(R151). -/
def State.setModeQuiet (s : State) (m : LineMode) : State :=
  if s.line.mode = m then s.completeMode m
  else if m = .listen then (s.enterListen .waiting).completeMode .listen
  else (s.quitListen m).completeMode m

/-- SET_MODE at the Line Unit (R146). -/
def State.setMode (s : State) (mode : Byte) : State :=
  match LineMode.ofCode mode with
  | none | some .rousing => s.complete .badArgument []
  | some m => if s.line.mode = .listen then s.setModeInListen m else s.setModeQuiet m

/-- SET_MODE. -/
def execSetMode (mode : Byte) (s : State) : Result :=
  .next (s.runCommand (.setMode mode) fun s => s.setMode mode)

/-- SET_MODE OFFLINE completes at the end of a character's stop bit (R148): a frame that collided ends as collided; any
other frame in flight is abandoned; then the part is OFFLINE. -/
def State.finishOffline (s : State) : State :=
  if s.line.phase.inFlight then
    if s.line.collided then (s.frameCollided.leaveListen .offline).completeMode .offline
    else s.abandonFrame.completeMode .offline
  else (s.leaveListen .offline).completeMode .offline

/-- OFFLINE_CHARACTER_END. -/
def execOfflineCharacterEnd (s : State) : Result :=
  .next (if s.host.work = some .offline then s.finishOffline else s)

/-! ## ROUSE (R152, R153) -/

/-- ROUSE at the Line Unit (R152): in DORMANT the mode becomes ROUSING and TXD is driven low. -/
def State.rouse (s : State) : State :=
  if s.line.mode = .dormant then
    { s with line := { s.line.quit .rousing with txd := .pulse } }.setWork .rouse
  else s.complete .wrongMode []

/-- ROUSE. -/
def execRouse (s : State) : Result := .next (s.runCommand .rouse fun s => s.rouse)

/-- The part's own rouse ends at entry to LISTEN (R153): DONE with the phase entered. -/
def State.finishRouse (s : State) (p : Phase) : State := (s.enterListen p).complete .done [p.code]

/-- ROUSE_PULSE_END: TXD returns high; a recessive line enters LISTEN, a dominant one starts the wait (R153). -/
def execRousePulseEnd (dominant : Bool) (s : State) : Result :=
  .next (if s.line.mode = .rousing ∧ s.line.txd = .pulse then
      if dominant then { s with line := { s.line with txd := .released } } else s.finishRouse .waiting
    else s)

/-- ROUSE_LINE_RELEASE: during the wait the line is released (R153). -/
def execRouseLineRelease (s : State) : Result :=
  .next (if s.line.mode = .rousing ∧ s.line.txd = .released then s.finishRouse .waiting else s)

/-- ROUSE_STUCK_TIMEOUT: still dominant 20 ms after the pulse (R153). -/
def execRouseStuckTimeout (s : State) : Result :=
  .next (if s.line.mode = .rousing ∧ s.line.txd = .released then
      (s.setCondition .lineStuck).finishRouse .recovering
    else s)

end Sys2Proof.Machine
end

