-- ==== Sys2Proof/Machine/Port.lean ====
section
/-! DEFINITION. The Host Port: NOP, the edges of CS, the resets, and RESTART (R165 to R178). -/

namespace Sys2Proof.Machine

/-! ## NOP (R169) -/

/-- NOP: it is not a command taken; the reply slot and READY stay as they were. -/
def execNop (s : State) : Result := .next s

/-! ## Transactions (R165 to R171) -/

/-- The bytes shifted out while READY is asserted: status, reply length, reply bytes; 00h after them (R166). -/
def Reply.image (r : Reply) : List Byte := r.status.code :: BitVec.ofNat 8 r.data.length :: r.data

/-- Byte i of what SDO shifts out from an image: 00h past its end (R166). -/
def imageByte (image : List Byte) (i : Nat) : Byte := image.getD i 0x00#8

/-- The bytes SDO has carried when this many have been clocked; none where SDO is high impedance (R165, R166). -/
def HostPort.shiftOut (h : HostPort) (count : Nat) : List Byte :=
  match h.sdo with
  | some image => (List.range count).map (imageByte image)
  | none => []

/-- The bytes shifted out while READY is deasserted: BUSY, 0; 00h after them (R166). -/
def busyImage : List Byte := [Status.code .busy, 0x00#8]

/-- The Host Port at a fall of CS that it reads (R166, R168). -/
def HostPort.select (h : HostPort) : HostPort :=
  match h.state with
  | .idle => { h with csLow := true, state := .shifting, sdo := some h.slot.image, buffer := [] }
  | .working | .initialising => { h with csLow := true, state := .workingBusy, sdo := some busyImage, buffer := [] }
  | .shifting | .workingBusy => h

/-- CS_FALL: while power is out of range or the RESET pin is asserted CS is not read (R172). -/
def execCsFall (s : State) : Result :=
  .next (if s.host.csLow then s
    else if s.host.stage = .held then { s with host := { s.host with csLow := true } }
    else { s with host := s.host.select })

/-- CS has risen and the port is in a state (R165: SDO is high impedance while CS is high). -/
def State.deselect (s : State) (p : PortState) (buffer : List Byte) : State :=
  { s with host := { s.host with csLow := false, sdo := none, state := p, buffer := buffer } }

/-- A whole frame at the rise of CS (R173): the Host Port's own checks, then the command handed to its block. -/
def State.takeFrame (s : State) (code : Byte) (params : List Byte) : State :=
  match decodeCommand code params with
  | .badCommand => s.complete .badCommand []
  | .badArgument => s.complete .badArgument []
  | .command i =>
    match portRefusal i with
    | some status => s.complete status []
    | none => s.setWork (.handed i)

/-- The rise of CS in SHIFTING: the first case of R167 that holds. The command buffer keeps the first 42 bytes
(R165); BAD_FRAME discards it (R171). -/
def State.judge (s : State) (bytes : List Byte) : State :=
  match judgeFrame bytes with
  | .noEffect => s.deselect .idle s.host.buffer
  | .nop => s.deselect .idle (bytes.take Config.bufferBytes)
  | .badFrame => (s.deselect .idle []).complete .badFrame []
  | .frame code params => (s.deselect .idle (bytes.take Config.bufferBytes)).takeFrame code params

/-- The state a BUSY transaction leaves at the rise of CS (R168). -/
def HostPort.afterBusy (h : HostPort) : PortState :=
  if h.ready then .idle else if h.stage = .complete then .working else .initialising

/-- The bytes that SDO has carried, as many as were clocked in (R166). -/
def State.recordShifted (s : State) (count : Nat) : State :=
  { s with host := { s.host with shifted := s.host.shiftOut count } }

/-- CS_RISE: a transaction begun with READY asserted is judged (R167); a BUSY transaction is discarded (R170). Each byte
clocked in has clocked one out (R166). -/
def execCsRise (bytes : List Byte) (s : State) : Result :=
  .next (if s.host.csLow = false then s
    else
      let s := s.recordShifted bytes.length
      match s.host.state with
      | .shifting => s.judge bytes
      | .workingBusy => s.deselect s.host.afterBusy []
      | .initialising | .idle | .working => { s with host := { s.host with csLow := false } })

/-! ## Resets (R172) -/

/-- The blocks in the state every reset leaves (R2, R29, R68, R102, R111, R143, R154, R176): configuration kept. -/
def State.resetBlocks (s : State) : State :=
  { s with
    table := TableController.reset
    pool := { s.pool with free := CellPool.allFree }
    claims := { s.claims with slots := ClaimTable.noClaims }
    line := { LineUnit.reset with rate := s.line.rate, hold := s.line.hold, idleLimit := s.line.idleLimit }
    attention := AttentionUnit.reset }

/-- The default configuration, after a power-on or a pin reset (R144). -/
def State.defaultConfiguration (s : State) : State :=
  { s with
    claims := { s.claims with lease := Config.defaultLease }
    line := { s.line with rate := .r9600, hold := Config.defaultHold, idleLimit := 0 } }

/-- The start of a power-on or pin reset (R172, R169): every block reset, the port INITIALISING, READY deasserted,
STARTED in the slot, SDO high impedance. CS is an input and keeps its level. -/
def State.startReset (s : State) : State :=
  let s := s.resetBlocks.defaultConfiguration
  { s with host :=
    { state := .initialising, ready := false, csLow := s.host.csLow, sdo := none, shifted := []
      buffer := []
      slot := ⟨.started, []⟩, work := none, stage := .held } }

/-- POWER_ON: the cells hold what an unlisted byte reads as (log 9). -/
def execPowerOn (s : State) : Result := .next { s.startReset with pool := CellPool.reset }

/-- PIN_RESET. -/
def execPinReset (s : State) : Result := .next s.startReset

/-- RESET_RELEASE: initialisation begins; a CS already low is a fall of CS (R172). -/
def execResetRelease (s : State) : Result :=
  .next (if s.host.stage = .held then
      let h := { s.host with stage := .initialising }
      { s with host := if h.csLow then h.select else h }
    else s)

/-- INITIALISATION_COMPLETE: the blocks are in their reset states; the port is IDLE, or stays WORKING_BUSY until the
rise of CS, with READY asserted and STARTED in the slot (R168, R172). -/
def execInitialisationComplete (s : State) : Result :=
  .next (if s.host.stage = .initialising then
      let s := s.resetBlocks.defaultConfiguration
      { s with host := { s.host with
          stage := .complete
          ready := true
          work := none
          state := if s.host.state = .workingBusy then .workingBusy else .idle } }
    else s)

/-! ## RESTART (R176 to R178) -/

/-- The reset of R176, in one event, with the DONE reply. -/
def State.finishRestart (s : State) : State := s.resetBlocks.complete .done []

/-- RESTART when it is taken: at once, or at the end of the character under way in ANSWERING (R177, R178). -/
def State.restart (s : State) : State :=
  if s.line.phase = .answering then s.setWork .restart else s.finishRestart

/-- RESTART. -/
def execRestart (s : State) : Result := .next (s.runCommand .restart fun s => s.restart)

/-- RESTART_CHARACTER_END (R178). -/
def execRestartCharacterEnd (s : State) : Result :=
  .next (if s.host.work = some .restart then s.finishRestart else s)

end Sys2Proof.Machine
end

