-- ==== Sys2Proof/Machine/Answers.lean ====
section
/-! DEFINITION. The part's own answer: the response space, the characters, collisions and the end of the answer
(R98, R109, R131 to R133). -/

namespace Sys2Proof.Machine

/-- Readback has stopped: a SET_MODE OFFLINE or a RESTART waits for the end of the character (R148, R178). -/
def State.readbackStopped (s : State) : Bool :=
  match s.host.work with
  | some .offline => true
  | some .restart => true
  | some (.handed _) => false
  | some .rouse => false
  | some (.vacate _ _) => false
  | none => false

/-- SPACE_COLLISION: dominant level in the response space (R131). -/
def execSpaceCollision (s : State) : Result :=
  .next (if s.line.mode = .listen ∧ s.line.phase = .space then s.frameCollided.enterQuiet .skipping else s)

/-- RESPONSE_SPACE_END: every request for the answer has been taken by now (R98); ANSWERING, and the answer's characters
go out (R109). -/
def execResponseSpaceEnd (s : State) : Result :=
  .next (if s.line.mode = .listen ∧ s.line.phase = .space then
      let s := s.serveRequest
      { s with line := { s.line with
          phase := .answering
          collided := false
          txd := .answer
          frame := { s.line.frame with answer := s.answerCharacters } } }
    else s)

/-- READBACK_MISMATCH: TXD returns high for the rest of the character (R132). -/
def execReadbackMismatch (s : State) : Result :=
  .next (if s.line.mode = .listen ∧ s.line.phase = .answering ∧ s.readbackStopped = false then
      { s with line := { s.line with collided := true, txd := .released } }
    else s)

/-- The end of a character that collided, with no RESTART and no SET_MODE OFFLINE waiting (R132): the frame ends as
collided; a break that goes on is recognised at this moment (R90, log 14). -/
def State.collidedEnd (s : State) (breakGoesOn : Bool) : State :=
  if breakGoesOn then s.frameCollided.newFrame else s.frameCollided.enterQuiet .skipping

/-- COLLIDED_CHARACTER_END: a RESTART or a SET_MODE OFFLINE that waits for this stop bit completes with it (R148,
R178). -/
def execCollidedCharacterEnd (breakGoesOn : Bool) (s : State) : Result :=
  .next (if s.line.mode = .listen ∧ s.line.phase = .answering ∧ s.line.collided = true then
      if s.host.work = some .restart then s.finishRestart
      else if s.host.work = some .offline then s.finishOffline
      else s.collidedEnd breakGoesOn
    else s)

/-- ANSWER_COMPLETE: the last stop bit, every readback sample having matched (R98, R103). -/
def execAnswerComplete (s : State) : Result :=
  .next (if s.line.mode = .listen ∧ s.line.phase = .answering ∧ s.line.collided = false ∧ s.readbackStopped = false then
      (s.frameEnd .completed).enterQuiet .waiting
    else s)

end Sys2Proof.Machine
end

