-- ==== Sys2Proof/Machine/AttentionCommands.lean ====
section
/-! DEFINITION. TAKE and LINE_STATUS at the Attention Unit, and the Table Controller's part of a TAKE that returns an
ENDING entry (R158, R159, R163). -/

namespace Sys2Proof.Machine

/-! ## TAKE (R158, R159) -/

/-- The six bytes of a TAKE reply: entry, handle, cause set, ended mark (R181). -/
def AttentionUnit.takeReply (u : AttentionUnit) (e : EntryNo) : List Byte :=
  [BitVec.ofNat 8 e.val] ++ handleBytes (u.record e).handle ++ causeBytes (u.record e).causes ++
    [if (u.record e).posting = PostingState.ending then 0x01#8 else 0x00#8]

/-- The entry at the head of the list removed and its cause set cleared; an ENDING record becomes CLOSED (R158,
R159). -/
def AttentionUnit.takeHead (u : AttentionUnit) (e : EntryNo) (rest : List EntryNo) : AttentionUnit :=
  let r := u.record e
  { u.setRecord e { r with
      posting := if r.posting = PostingState.ending then .closed else r.posting, causes := 0#13 } with list := rest }.drive

/-- TAKE at the Attention Unit (R158): EMPTY, or the head of the list. For an ENDING entry the command waits for the
Table Controller (R159, R174). -/
def State.take (s : State) : State :=
  match s.attention.list with
  | [] => s.complete .empty []
  | e :: rest =>
    let reply := s.attention.takeReply e
    let taken := { s with attention := s.attention.takeHead e rest }
    if (s.attention.record e).posting = PostingState.ending then taken.setWork (.vacate e reply) else taken.complete .done reply

/-- TAKE. -/
def execTake (s : State) : Result := .next (s.runCommand .take fun s => s.take)

/-- TAKE_ENDED_VACATE: the Table Controller makes the entry VACANT and the TAKE completes (R27, R159). -/
def execTakeEndedVacate (s : State) : Result :=
  .next (match s.host.work with
    | some (.vacate e reply) => (s.vacate e).complete .done reply
    | _ => s)

/-! ## LINE_STATUS (R163) -/

/-- LINE_STATUS at the Attention Unit: mode, phase and the condition set, which is then emptied (R163, R164). -/
def State.lineStatus (s : State) : State :=
  { s with attention := { s.attention with conditions := 0#8 }.drive }.complete .done
    [s.line.mode.code, s.line.phase.code, s.attention.conditions]

/-- LINE_STATUS. -/
def execLineStatus (s : State) : Result := .next (s.runCommand .lineStatus fun s => s.lineStatus)

end Sys2Proof.Machine
end

