-- ==== Sys2Proof/Machine/ClaimCommands.lean ====
section
/-! DEFINITION. The host's claim commands HOLD and LET_GO (R77 to R79), and the expiry of a lease taken by itself
(R73). -/

namespace Sys2Proof.Machine

/-! ## HOLD (R77) -/

/-- HOLD at the Claim Table, after R19's checks: the first row of R77 that holds. -/
def State.hold (s : State) (e : EntryNo) : State :=
  if (s.entry e).role = .mirror then s.complete .wrongRole []
  else match s.claims.slotOf e with
    | some k => match s.claims.slot k with
      | .reserved _ t _ _ => s.complete .claimed [t.zeroExtend 8, 0x01#8]
      | .heldLine _ t _ => s.complete .claimed [t.zeroExtend 8, 0x02#8]
      | .heldHost _ | .free => s.complete .done [BitVec.ofNat 8 k.val]
    | none => match s.claims.firstFree with
      | some k => (s.setSlot k (.heldHost e)).complete .done [BitVec.ofNat 8 k.val]
      | none => s.complete .claimsFull []

/-- HOLD. -/
def execHold (entry : Byte) (s : State) : Result :=
  .next (s.runCommand (.hold entry) fun s => s.withEntry false entry fun e => s.hold e)

/-! ## LET_GO (R78, R79) -/

/-- LET_GO with force on a slot of origin LINE (R79). -/
def State.forceFree (s : State) (k : SlotNo) (e : EntryNo) : State :=
  match s.claims.slot k with
  | .heldLine _ _ _ => (s.setSlot k .free).post e .claimEnded
  | .reserved _ _ _ renewal =>
    if renewal then (s.setSlot k .free).post e .claimEnded else s.setSlot k .free
  | .heldHost _ | .free => s

/-- LET_GO at the Claim Table, after R19's checks: the first row of R78 that holds. -/
def State.letGo (s : State) (e : EntryNo) (force : Bool) : State :=
  if (s.entry e).role = .mirror then s.complete .wrongRole []
  else match s.claims.slotOf e with
    | none => s.complete .wrongState []
    | some k => match s.claims.slot k with
      | .heldHost _ => (s.setSlot k .free).complete .done []
      | .reserved _ _ _ _ | .heldLine _ _ _ =>
        if force then (s.forceFree k e).complete .done [] else s.complete .wrongState []
      | .free => s.complete .wrongState []

/-- LET_GO. -/
def execLetGo (entry force : Byte) (s : State) : Result :=
  .next (s.runCommand (.letGo entry force) fun s =>
    s.withEntry false entry fun e => s.letGo e (decide (force = 0x01#8)))

end Sys2Proof.Machine
end

