-- ==== Sys2Proof/Machine/Dormancy.lean ====
section
/-! DEFINITION. What the line brings in DORMANT (R151). -/

namespace Sys2Proof.Machine

/-- DORMANT_SHORT_RUN: passed over; the mode stays DORMANT and no condition is set. -/
def execDormantShortRun (s : State) : Result := .next s

/-- ROUSE_DETECTED: a run that began in DORMANT reaches 100 µs; the mode stays DORMANT until it ends. -/
def execRouseDetected (s : State) : Result :=
  .next (if s.line.mode = .dormant then { s with line := { s.line with rouseSeen := true } } else s)

/-- ROUSE_RUN_END: the end of a detected rouse; LISTEN in WAITING. -/
def execRouseRunEnd (s : State) : Result :=
  .next (if s.line.mode = .dormant ∧ s.line.rouseSeen = true then s.enterListen .waiting else s)

/-- DORMANT_LINE_STUCK: a run reaches 20 ms; LINE_STUCK set, LISTEN in RECOVERING. -/
def execDormantLineStuck (s : State) : Result :=
  .next (if s.line.mode = .dormant then (s.setCondition .lineStuck).enterListen .recovering else s)

end Sys2Proof.Machine
end

