-- ==== Sys2Proof/Machine/Headers.lean ====
section
/-! DEFINITION. Receiving a header: start bits, header characters, the header limit (R87, R93, R129). -/

namespace Sys2Proof.Machine

/-- START_BIT_SAMPLE: in HEADER or RECEIVING a dominant sample begins a character, and in RECEIVING counts as a start
edge of the response; a recessive one is a false start, and its edge is dropped (R87, R100, R136). An edge inside a
character is none. -/
def execStartBitSample (dominant : Bool) (s : State) : Result :=
  .next (if s.line.mode = .listen ∧ s.line.assembling = false then
      match s.line.phase with
      | .header => { s with line := { s.line with assembling := dominant } }
      | .receiving => { s with line := { s.line with
          assembling := dominant, startSeen := s.line.startSeen || dominant, edge := false } }
      | .waiting | .inBreak | .space | .answering | .skipping | .recovering => s
    else s)

/-- A header character kept, with the check register after it (R93, R95). -/
def State.keepHeader (s : State) (b : Byte) (check : Byte) : State :=
  { s with line := { s.line with header := s.line.header ++ [b], check := check, assembling := false } }

/-- A header character whose stop bit is recessive, by its place (R93): SYNC, H1, H2, HC. -/
def State.headerByte (s : State) (b : Byte) : State :=
  match s.line.header with
  | [] => if b = syncByte then s.keepHeader b s.line.check else s.headerFault .syncBad
  | [_] => s.keepHeader b (crcByte s.line.check b)
  | [_, _] => s.keepHeader b (crcByte s.line.check b)
  | _ :: h1 :: h2 :: _ => if b = s.line.check then s.decodeHeader h1 h2 else s.headerFault .headerCheck

/-- HEADER_CHARACTER. -/
def execHeaderCharacter (b : Byte) (stopDominant : Bool) (s : State) : Result :=
  .next (if s.line.mode = .listen ∧ s.line.phase = .header then
      if stopDominant then s.headerFault .headerFraming else s.headerByte b
    else s)

/-- HEADER_OVERTIME: the header limit runs out before HC's stop-bit sample (R93, R129). -/
def execHeaderOvertime (s : State) : Result :=
  .next (if s.line.mode = .listen ∧ s.line.phase = .header then s.headerFault .headerOvertime else s)

end Sys2Proof.Machine
end

