-- ==== Sys2Proof/Machine/Reception.lean ====
section
/-! DEFINITION. Receiving a response: its characters, its check, its window (R100, R134 to R137). -/

namespace Sys2Proof.Machine

/-- A received response character: it joins the landing buffer and the check register runs on over it (R96, R100). -/
def State.landByte (s : State) (b : Byte) : State :=
  { s with line := { s.line with
      landing := s.line.landing ++ [b]
      check := crcByte s.line.check b
      assembling := false
      startSeen := true
      edge := false } }

/-- The n-th character (R100, R135): a good check ends the frame as received, a wrong one is DAMAGED. -/
def State.lastByte (s : State) (b : Byte) : State :=
  if b = s.line.check then ((s.landByte b).frameEnd .received).enterQuiet .skipping
  else (s.landByte b).receptionFault .damaged

/-- RESPONSE_CHARACTER: a dominant stop bit is a framing fault (R134). -/
def execResponseCharacter (b : Byte) (stopDominant : Bool) (s : State) : Result :=
  .next (if s.line.mode = .listen ∧ s.line.phase = .receiving then
      if stopDominant then s.receptionFault .damaged
      else if s.line.landing.length + 1 < s.line.frame.n.getD 0 then s.landByte b
      else s.lastByte b
    else s)

/-- RESPONSE_WINDOW_DEADLINE: W(n) passes in RECEIVING: NO_ANSWER, or OVERTIME once a start edge has been seen, be it one
whose sample at 0.5 Tb is still to come (R100, R136). -/
def execResponseWindowDeadline (s : State) : Result :=
  .next (if s.line.mode = .listen ∧ s.line.phase = .receiving then
      s.receptionFault (if s.line.startSeen || s.line.edge then .overtime else .noAnswer)
    else s)

end Sys2Proof.Machine
end

