-- ==== Sys2Proof/Machine/Records.lean ====
section
/-! DEFINITION. The record commands of the host: DEFINE, AMEND, STAGE, COMMIT, DISCARD, READ, DESCRIBE, FIND and host
RETIRE (chapters 1 and 2). -/

namespace Sys2Proof.Machine

/-! ## DEFINE (R15, R16) -/

/-- The first step of R15: whether the arguments are all in range and allowed together. -/
def defineArgumentsOk (handle : Half) (role len permits : Byte) (mask : Half) : Bool :=
  decide (handle.toNat ≤ 511) && decide (1 ≤ len.toNat ∧ len.toNat ≤ 64) && maskOk mask &&
  match Role.ofCode role with
  | none => false
  | some .mirror => !(Permits.ofByte permits).any
  | some .source => !((Permits.ofByte permits).storeOk && decide (16 < len.toNat))

/-- The entry a DEFINE makes (R16). -/
def definedEntry (handle : Half) (role len permits : Byte) (limit : Half) : Entry :=
  { Entry.vacant with
    state := .draft
    handle := handle.truncate 9
    role := (Role.ofCode role).getD .source
    length := len.toNat
    permits := Permits.ofByte permits
    limit := limit.toNat }

/-- A DEFINE that passed R15, on the entry it takes (R16, R155, R161). -/
def State.defineEntry (s : State) (e : EntryNo) (handle : Half) (role len permits : Byte) (limit mask : Half) :
    State :=
  let table := (s.table.setEntry e (definedEntry handle role len permits limit)).setIndex (handle.truncate 9) (some e)
  { s with
    table := table
    attention := s.attention.setRecord e ⟨.opened, handle.truncate 9, storedMask mask, 0#13⟩ }

/-- DEFINE at the Table Controller: R15's three steps, then R16. -/
def State.define (s : State) (handle : Half) (role len permits : Byte) (limit mask : Half) : State :=
  if defineArgumentsOk handle role len permits mask = false then s.complete .badArgument []
  else if (s.table.lookup (handle.truncate 9)).isSome then s.complete .handleInUse []
  else match s.table.firstVacant with
    | none => s.complete .tableFull []
    | some e => (s.defineEntry e handle role len permits limit mask).complete .done [BitVec.ofNat 8 e.val]

/-- DEFINE. -/
def execDefine (handle : Half) (role len permits : Byte) (limit mask : Half) (s : State) : Result :=
  .next (s.runCommand (.define handle role len permits limit mask)
    fun s => s.define handle role len permits limit mask)

/-! ## AMEND (R17, R18) -/

/-- The second step of R17, on the entry named. -/
def amendArgumentsOk (x : Entry) (selector permits : Byte) (mask : Half) : Bool :=
  selectorOk selector &&
  !(selector.getLsbD 0 && decide (x.role = .mirror) && (Permits.ofByte permits).any) &&
  !(selector.getLsbD 0 && (Permits.ofByte permits).storeOk && decide (16 < x.length)) &&
  !(selector.getLsbD 1 && !maskOk mask)

/-- An AMEND that passed R17: each named field written (R18, R161); a new limit is used from the next tick on (R61). -/
def State.amendEntry (s : State) (e : EntryNo) (selector permits : Byte) (mask limit : Half) : State :=
  let x := s.entry e
  let s := s.setEntry e { x with
    permits := if selector.getLsbD 0 then Permits.ofByte permits else x.permits
    limit := if selector.getLsbD 2 then limit.toNat else x.limit
    amended := selector.getLsbD 2 || x.amended }
  if selector.getLsbD 1 then s.setMask e (storedMask mask) else s

/-- AMEND. -/
def execAmend (entry selector permits : Byte) (mask limit : Half) (s : State) : Result :=
  .next (s.runCommand (.amend entry selector permits mask limit) fun s =>
    s.withEntry false entry fun e =>
      if amendArgumentsOk (s.entry e) selector permits mask then
        (s.amendEntry e selector permits mask limit).complete .done []
      else s.complete .badArgument [])

/-! ## STAGE (R35 to R37) -/

/-- The staged copy a first STAGE creates in newly allocated cells (R36): the current copy's bytes, or zeros. -/
def State.stagedFill (s : State) (e : EntryNo) (cells : List CellNo) (p : CellPool) : CellPool :=
  match (s.entry e).current with
  | some source => p.copyFrom source cells
  | none => p.zero cells

/-- STAGE on an entry, after R19's checks (R35 to R37). -/
def State.stage (s : State) (e : EntryNo) (offset : Byte) (data : List Byte) : State :=
  let x := s.entry e
  if x.role = .mirror then s.complete .wrongRole []
  else if data.length = 0 ∨ 32 < data.length ∨ x.length < offset.toNat + data.length then s.complete .badArgument []
  else match x.staged with
    | some cells =>
      { s with pool := CellPool.writeRecord cells s.pool offset.toNat data }.complete .done []
    | none =>
      match s.pool.allocate x.segments with
      | none => s.complete .noCells []
      | some (cells, p) =>
        { s.setEntry e { x with staged := some cells } with
          pool := CellPool.writeRecord cells (s.stagedFill e cells p) offset.toNat data }.complete .done []

/-- STAGE. -/
def execStage (entry offset : Byte) (data : List Byte) (s : State) : Result :=
  .next (s.runCommand (.stage entry offset data) fun s => s.withEntry false entry fun e => s.stage e offset data)

/-! ## COMMIT (R38 to R40) -/

/-- Whether the pin marks the current copy of an entry (R39). -/
def State.currentPinned (s : State) (e : EntryNo) : Bool :=
  match s.table.pin with
  | some p => decide (p.entry = e ∧ p.kind = .current)
  | none => false

/-- R39, step 1: a pinned old current copy becomes the held copy and keeps the pin; an unpinned one is freed. -/
def State.retireCurrent (s : State) (e : EntryNo) : State :=
  match (s.entry e).current with
  | none => s
  | some cells =>
    if s.currentPinned e then
      (s.setEntry e { s.entry e with current := none, held := some ⟨cells, (s.entry e).version⟩ }).setPin
        (s.table.pin.map fun p => { p with kind := .held })
    else s.freeCurrent e

/-- A COMMIT that passed R38 (R39): the old current copy dealt with, the staged copy made current, the version
advanced, the age restarted, the entry LIVE. -/
def State.commitEntry (s : State) (e : EntryNo) (cells : List CellNo) : State :=
  let s := s.retireCurrent e
  let x := s.entry e
  s.setEntry e { x.refresh with current := some cells, staged := none, version := x.version + 1 }

/-- COMMIT on an entry, after R19's checks (R38, R39). -/
def State.commit (s : State) (e : EntryNo) : State :=
  if (s.entry e).role = .mirror then s.complete .wrongRole []
  else match (s.entry e).staged with
    | none => s.complete .wrongState []
    | some cells =>
      if s.claims.blocksCommit e then s.complete .claimed []
      else (s.commitEntry e cells).complete .done [((s.entry e).version + 1).zeroExtend 8]

/-- COMMIT. -/
def execCommit (entry : Byte) (s : State) : Result :=
  .next (s.runCommand (.commit entry) fun s => s.withEntry false entry fun e => s.commit e)

/-! ## DISCARD (R41) -/

/-- DISCARD on an entry, after R19's checks (R41). -/
def State.discard (s : State) (e : EntryNo) : State :=
  if (s.entry e).role = .mirror then s.complete .wrongRole []
  else match (s.entry e).staged with
    | none => s.complete .wrongState []
    | some _ => (s.freeStaged e).complete .done []

/-- DISCARD. -/
def execDiscard (entry : Byte) (s : State) : Result :=
  .next (s.runCommand (.discard entry) fun s => s.withEntry false entry fun e => s.discard e)

/-! ## READ (R42) -/

/-- READ on an entry, after R19's checks (R42). -/
def State.read (s : State) (e : EntryNo) (offset count : Byte) : State :=
  let x := s.entry e
  if count.toNat = 0 ∨ 32 < count.toNat ∨ x.length < offset.toNat + count.toNat then s.complete .badArgument []
  else match x.current with
    | none => s.complete .noData []
    | some cells =>
      s.complete .done
        (x.version.zeroExtend 8 :: x.state.code :: x.flagsByte ::
          s.pool.readRecord cells offset.toNat count.toNat)

/-- READ. -/
def execRead (entry offset count : Byte) (s : State) : Result :=
  .next (s.runCommand (.read entry offset count) fun s => s.withEntry false entry fun e => s.read e offset count)

/-! ## DESCRIBE (R21) -/

/-- The nineteen bytes of a DESCRIBE reply (R21, R181). -/
def State.description (s : State) (e : EntryNo) : List Byte :=
  let x := s.entry e
  let r := s.attention.record e
  [BitVec.ofNat 8 e.val, x.state.code] ++ handleBytes x.handle ++ [x.role.code, BitVec.ofNat 8 x.length, x.permits.code] ++
    numberBytes x.limit ++ numberBytes x.age ++
    [x.version.zeroExtend 8, x.copiesByte,
      match x.held with
      | some h => h.version.zeroExtend 8
      | none => 0x00#8,
      x.flagsByte] ++
    causeBytes r.mask ++ causeBytes r.causes

/-- DESCRIBE. -/
def execDescribe (entry : Byte) (s : State) : Result :=
  .next (s.runCommand (.describe entry) fun s =>
    s.withEntry true entry fun e => s.complete .done (s.description e))

/-! ## FIND (R20) -/

/-- FIND at the Table Controller (R20). -/
def State.find (s : State) (handle : Half) : State :=
  if 511 < handle.toNat then s.complete .badArgument []
  else match s.table.lookup (handle.truncate 9) with
    | none => s.complete .noEntry []
    | some e => s.complete .done [BitVec.ofNat 8 e.val, (s.entry e).state.code]

/-- FIND. -/
def execFind (handle : Half) (s : State) : Result :=
  .next (s.runCommand (.find handle) fun s => s.find handle)

/-! ## Host RETIRE (R23, R24, R27) -/

/-- Host RETIRE of an entry in DRAFT, LIVE or STALE (R23, R24): VACANT at once, or RETIRING when the in-flight mark
names it. Its cause set is cleared either way (R160). -/
def State.retireRecord (s : State) (e : EntryNo) : State :=
  if s.table.inFlight = some e then
    ((s.setEntry e { s.entry e with state := .retiring }).clear e).complete .done [EntryState.code .retiring]
  else (((s.teardown e).clear e).vacate e).complete .done [EntryState.code .vacant]

/-- Host RETIRE on an entry, after R19's checks (R23, R24, R27). -/
def State.retire (s : State) (e : EntryNo) : State :=
  match (s.entry e).state with
  | .draft | .live | .stale => s.retireRecord e
  | .retiring => s.complete .done [EntryState.code .retiring]
  | .ended => ((s.clear e).vacate e).complete .done [EntryState.code .vacant]
  | .vacant => s.complete .noEntry []

/-- Host RETIRE. -/
def execRetire (entry : Byte) (s : State) : Result :=
  .next (s.runCommand (.retire entry) fun s => s.withEntry true entry fun e => s.retire e)

end Sys2Proof.Machine
end

