-- ==== Sys2Proof/Machine/Runs.lean ====
section
/-! DEFINITION. Dominant runs, breaks, a stuck line and recovery (R89 to R92, R139 to R141). -/

namespace Sys2Proof.Machine

/-- A run that was under way at the entry to LISTEN has ended (R89). -/
def State.endRunBefore (s : State) : State := { s with line := { s.line with runBefore := false } }

/-- DOMINANT_RUN_START: in WAITING the phase becomes IN_BREAK (R91), and in the other phases it does not change. In
RECEIVING, between characters, it is a start edge seen (R100, R136, log 31). A run that was under way at the entry to
LISTEN has ended before it (R89). -/
def execDominantRunStart (s : State) : Result :=
  .next (if s.line.mode = .listen then
      match s.line.phase with
      | .waiting => { s.endRunBefore with line := { s.endRunBefore.line with phase := .inBreak, breakSeen := false } }
      | .recovering => s.endRunBefore
      | .receiving => if s.line.assembling then s else { s with line := { s.line with edge := true } }
      | .inBreak | .header | .space | .answering | .skipping => s
    else s)

/-- RUN_SHORT_OF_BREAK: a run from WAITING that ends before 12 Tb (R91). In WAITING it is the end of the run that was
under way at the entry to LISTEN, and the phase stays WAITING (R89). -/
def execRunShortOfBreak (s : State) : Result :=
  .next (if s.line.mode = .listen then
      match s.line.phase with
      | .inBreak => if s.line.breakSeen then s else s.enterQuiet .waiting
      | .waiting => s.endRunBefore
      | .header | .space | .answering | .receiving | .skipping | .recovering => s
    else s)

/-- A run that reaches 12 Tb in LISTEN, by the phase (R90). In HEADER the header ends with HEADER_FRAMING (R129); in
RECEIVING the frame is cut (R139); in SPACE the run has collided first (R131, log 13). It is no break in ANSWERING, nor
where it was under way at the entry to LISTEN (R89). In WAITING it began in the last half bit of the part's own
answer. -/
def State.reachBreak (s : State) : State :=
  match s.line.phase with
  | .inBreak => if s.line.breakSeen then s else s.newFrame
  | .header => ((s.setCondition .headerFraming).breakSequence).newFrame
  | .space => s.frameCollided.newFrame
  | .receiving => (((s.setCondition .cut).frameEnd .cut).postFrame .damaged).newFrame
  | .skipping => s.newFrame
  | .recovering => if s.line.runBefore then s else s.newFrame
  | .answering => s
  | .waiting => if s.line.runBefore then s else s.newFrame

/-- BREAK_RECOGNISED. -/
def execBreakRecognised (s : State) : Result := .next (if s.line.mode = .listen then s.reachBreak else s)

/-- BREAK_END: the end of a recognised break; the header begins (R91, R93, R95). -/
def execBreakEnd (s : State) : Result :=
  .next (if s.line.mode = .listen ∧ s.line.phase = .inBreak ∧ s.line.breakSeen = true then
      { s with line := { s.line with
          phase := .header, breakSeen := false, header := [], check := crcStart, assembling := false } }
    else s)

/-- LINE_STUCK: LINE_STUCK set, the phase RECOVERING (R140). A frame in flight, which R140 says cannot be, ends as
failed with no cause of its own (R103, log 12). -/
def execLineStuck (s : State) : Result :=
  .next (if s.line.mode = .listen then
      let s := s.setCondition .lineStuck
      (if s.line.phase.inFlight then s.frameEnd .faulty else s).enterQuiet .recovering
    else s)

/-- RECOVERING_RUN_END: the count of recessive time restarts; the phase stays RECOVERING (R141). The model does not
measure that count (log 3); the run that has ended is no longer under way (R89). -/
def execRecoveringRunEnd (s : State) : Result :=
  .next (if s.line.mode = .listen ∧ s.line.phase = .recovering then s.endRunBefore else s)

/-- RECOVERY_COMPLETE: 10 Tb of recessive level in RECOVERING (R141). -/
def execRecoveryComplete (s : State) : Result :=
  .next (if s.line.mode = .listen ∧ s.line.phase = .recovering then s.enterQuiet .waiting else s)

end Sys2Proof.Machine
end

