-- ==== Sys2Proof/Machine/Timers.lean ====
section
/-! DEFINITION. The Timebase's tick at the three blocks it reaches, the expiries a tick can bring, and the expiry of
the segment hold (R54 to R58, R73, R113, R150). -/

namespace Sys2Proof.Machine

/-! ## The tick at each block -/

/-- Every entry after a tick (R55). -/
def TableController.ticked (t : TableController) : TableController := { t with entries := t.entries.map Entry.ticked }

/-- The STALE postings of a tick (R58). -/
def TableController.tickPostings (t : TableController) : List (EntryNo × CauseSet) :=
  ((List.finRange 128).filter fun e => (t.entry e).advance.expires).map fun e => (e, Cause.set .stale)

/-- A slot after a tick: a HELD LINE slot's lease runs down by 1 and expires at 0 (R73). -/
def Slot.ticked : Slot → Slot
  | .heldLine e t lease => if lease ≤ 1 then .free else .heldLine e t (lease - 1)
  | .free => .free
  | .reserved e t lease renewal => .reserved e t lease renewal
  | .heldHost e => .heldHost e

/-- The entry of a slot that a tick expires (R73). -/
def Slot.expiring : Slot → Option EntryNo
  | .heldLine e _ lease => if lease ≤ 1 then some e else none
  | .free | .reserved _ _ _ _ | .heldHost _ => none

/-- The CLAIM_ENDED postings of a tick (R73). -/
def ClaimTable.tickPostings (c : ClaimTable) : List (EntryNo × CauseSet) :=
  ((List.finRange 8).filterMap fun k => (c.slot k).expiring).map fun e => (e, Cause.set .claimEnded)

/-- The idle count a limit of I seconds expires at (R150). -/
def idleTarget (limit : Nat) : Nat := Config.ticksPerSecond * limit

/-- The idle timer after a tick (R150): it runs in LISTEN, and is stopped in the other modes. -/
def LineUnit.idleTicked (l : LineUnit) : LineUnit :=
  if l.mode = .listen then { l with idle := l.idle.map (· + 1) } else l

/-- Whether the idle count stands at its limit, in LISTEN (R150). -/
def LineUnit.idleDue (l : LineUnit) : Bool :=
  decide (l.mode = .listen ∧ l.idleLimit ≠ 0 ∧ l.idle = some (idleTarget l.idleLimit))

/-- SEG_BROKEN, where the idle expiry of a tick closes an open sequence (R147, R150). -/
def LineUnit.idlePostings (l : LineUnit) : List (EntryNo × CauseSet) :=
  if l.idleDue && l.phase.quiet then (l.seq.map fun q => (q.entry, Cause.set .segBroken)).toList else []

/-- The idle expiry at the Line Unit, but for its posting (R150): to DORMANT at once in WAITING, SKIPPING or
RECOVERING; held pending in the other phases. -/
def State.idleExpired (s : State) : State :=
  if s.line.phase.quiet then s.closeSequence.quitListen .dormant
  else { s with line := { s.line with idlePending := true } }

/-- A tick at the three blocks, each taking it whole, and the postings it brings (R54, R55, R73, R150). -/
def State.tick (s : State) : State :=
  let postings := s.table.tickPostings ++ s.claims.tickPostings ++ s.line.idleTicked.idlePostings
  let s := { s with
    table := s.table.ticked
    claims := { s.claims with slots := s.claims.slots.map Slot.ticked }
    line := s.line.idleTicked }
  let s := if s.line.idleDue then s.idleExpired else s
  { s with attention := s.attention.postTick s.orderCount postings, orderCount := s.orderCount + 1 }

/-- TICK: the Timebase is stopped while a reset lasts (R54). -/
def execTick (s : State) : Result := .next (if s.host.stage = .complete then s.tick else s)

/-! ## The expiries by themselves (log 6) -/

/-- FRESHNESS_EXPIRY: the comparison of R55 and its effect (R58), for one entry. After an AMEND of the limit it waits
for the next tick (R61). -/
def execFreshnessExpiry (e : EntryNo) (s : State) : Result :=
  .next (if (s.entry e).expires then (s.setEntry e { s.entry e with state := .stale }).post e .stale else s)

/-- LEASE_EXPIRY: a HELD LINE slot whose lease has reached 0 becomes FREE (R73). -/
def execLeaseExpiry (k : SlotNo) (s : State) : Result :=
  .next (match s.claims.slot k with
    | .heldLine e _ 0 => (s.setSlot k .free).post e .claimEnded
    | _ => s)

/-- IDLE_EXPIRY: the idle count stands at its limit and the expiry has not been deferred already (R150). -/
def execIdleExpiry (s : State) : Result :=
  .next (if s.line.idleDue = true ∧ s.line.idlePending = false then
      if s.line.phase.quiet then s.leaveListen .dormant
      else { s with line := { s.line with idlePending := true } }
    else s)

/-- DEFERRED_IDLE_EXPIRY: a pending expiry is settled in WAITING, SKIPPING or RECOVERING (R150). -/
def execDeferredIdleExpiry (s : State) : Result := .next s.settleIdle

/-! ## The segment hold (R113) -/

/-- SEGMENT_HOLD_EXPIRY: an open sequence whose hold runs closes with SEG_BROKEN; while a continuation frame is under
way the hold does not run (R112). -/
def execSegmentHoldExpiry (s : State) : Result :=
  .next (match s.line.seq with
    | some q => if q.hold.isSome then s.breakSequence else s
    | none => s)

end Sys2Proof.Machine
end

