-- ==== Sys2Proof/Machine/Dispatch.lean ====
section
/-! DEFINITION. The meaning of every command, one arm for each row of spec/opcode_table.json. -/

namespace Sys2Proof.Machine

def exec (i : Instr) (s : State) : Host.Outcome State Fault Refusal :=
  match i with
  | .nop => Sys2Proof.Machine.execNop s
  | .configure rate holdTb idle lease => Sys2Proof.Machine.execConfigure rate holdTb idle lease s
  | .setMode mode => Sys2Proof.Machine.execSetMode mode s
  | .rouse => Sys2Proof.Machine.execRouse s
  | .define handle role len permits limit mask => Sys2Proof.Machine.execDefine handle role len permits limit mask s
  | .amend entry selector permits mask limit => Sys2Proof.Machine.execAmend entry selector permits mask limit s
  | .stage entry offset data => Sys2Proof.Machine.execStage entry offset data s
  | .commit entry => Sys2Proof.Machine.execCommit entry s
  | .discard entry => Sys2Proof.Machine.execDiscard entry s
  | .read entry offset count => Sys2Proof.Machine.execRead entry offset count s
  | .describe entry => Sys2Proof.Machine.execDescribe entry s
  | .find handle => Sys2Proof.Machine.execFind handle s
  | .retire entry => Sys2Proof.Machine.execRetire entry s
  | .hold entry => Sys2Proof.Machine.execHold entry s
  | .letGo entry force => Sys2Proof.Machine.execLetGo entry force s
  | .take => Sys2Proof.Machine.execTake s
  | .lineStatus => Sys2Proof.Machine.execLineStatus s
  | .restart => Sys2Proof.Machine.execRestart s
  | .csFall => Sys2Proof.Machine.execCsFall s
  | .csRise bytes => Sys2Proof.Machine.execCsRise bytes s
  | .powerOn => Sys2Proof.Machine.execPowerOn s
  | .pinReset => Sys2Proof.Machine.execPinReset s
  | .resetRelease => Sys2Proof.Machine.execResetRelease s
  | .initialisationComplete => Sys2Proof.Machine.execInitialisationComplete s
  | .tick => Sys2Proof.Machine.execTick s
  | .freshnessExpiry entry => Sys2Proof.Machine.execFreshnessExpiry entry s
  | .leaseExpiry slot => Sys2Proof.Machine.execLeaseExpiry slot s
  | .idleExpiry => Sys2Proof.Machine.execIdleExpiry s
  | .deferredIdleExpiry => Sys2Proof.Machine.execDeferredIdleExpiry s
  | .segmentHoldExpiry => Sys2Proof.Machine.execSegmentHoldExpiry s
  | .dominantRunStart => Sys2Proof.Machine.execDominantRunStart s
  | .runShortOfBreak => Sys2Proof.Machine.execRunShortOfBreak s
  | .breakRecognised => Sys2Proof.Machine.execBreakRecognised s
  | .breakEnd => Sys2Proof.Machine.execBreakEnd s
  | .headerCharacter byte stopDominant => Sys2Proof.Machine.execHeaderCharacter byte stopDominant s
  | .headerOvertime => Sys2Proof.Machine.execHeaderOvertime s
  | .spaceCollision => Sys2Proof.Machine.execSpaceCollision s
  | .responseSpaceEnd => Sys2Proof.Machine.execResponseSpaceEnd s
  | .readbackMismatch => Sys2Proof.Machine.execReadbackMismatch s
  | .collidedCharacterEnd breakGoesOn => Sys2Proof.Machine.execCollidedCharacterEnd breakGoesOn s
  | .answerComplete => Sys2Proof.Machine.execAnswerComplete s
  | .responseCharacter byte stopDominant => Sys2Proof.Machine.execResponseCharacter byte stopDominant s
  | .responseWindowDeadline => Sys2Proof.Machine.execResponseWindowDeadline s
  | .lineStuck => Sys2Proof.Machine.execLineStuck s
  | .recoveringRunEnd => Sys2Proof.Machine.execRecoveringRunEnd s
  | .recoveryComplete => Sys2Proof.Machine.execRecoveryComplete s
  | .dormantShortRun => Sys2Proof.Machine.execDormantShortRun s
  | .rouseDetected => Sys2Proof.Machine.execRouseDetected s
  | .rouseRunEnd => Sys2Proof.Machine.execRouseRunEnd s
  | .dormantLineStuck => Sys2Proof.Machine.execDormantLineStuck s
  | .rousePulseEnd dominant => Sys2Proof.Machine.execRousePulseEnd dominant s
  | .rouseLineRelease => Sys2Proof.Machine.execRouseLineRelease s
  | .rouseStuckTimeout => Sys2Proof.Machine.execRouseStuckTimeout s
  | .offlineCharacterEnd => Sys2Proof.Machine.execOfflineCharacterEnd s
  | .restartCharacterEnd => Sys2Proof.Machine.execRestartCharacterEnd s
  | .takeEndedVacate => Sys2Proof.Machine.execTakeEndedVacate s
  | .startBitSample dominant => Sys2Proof.Machine.execStartBitSample dominant s

end Sys2Proof.Machine
end

