-- ==== Sys2Proof/Safety.lean ====
section
/-! DEFINITION. When a command is taken, and what holds of every state the part can be in: the invariants of each
block, in the terms the statements use. -/

namespace Sys2Proof

/-- A row of a host command of section 10.4.1. -/
def Instr.isHostCommand (i : Instr) : Bool := (encodeCommand i).isSome

/-- The entry byte of a record command that names an entry by number, and whether the command is DESCRIBE or RETIRE
(R19). -/
def Instr.namedEntry : Instr → Option (Byte × Bool)
  | .amend e _ _ _ _ => some (e, false)
  | .stage e _ _ => some (e, false)
  | .commit e => some (e, false)
  | .discard e => some (e, false)
  | .read e _ _ => some (e, false)
  | .hold e => some (e, false)
  | .letGo e _ => some (e, false)
  | .describe e => some (e, true)
  | .retire e => some (e, true)
  | _ => none

end Sys2Proof

namespace Sys2Proof.Machine

/-! ## A host command being taken -/

/-- The host command c reaches the block that owns it: the Host Port does not refuse it itself (R173), and it has been
handed to its block, or the port is IDLE and the row is the whole transaction (log 4). -/
def State.Takes (s : State) (c : Instr) : Prop :=
  portRefusal c = none ∧ (s.host.work = some (.handed c) ∨ s.host.state = .idle)

/-- The Host Port after a completion with this reply (R168, R169): IDLE, but for a transaction under way. -/
def HostPort.completed (h : HostPort) (status : Status) (data : List Byte) : HostPort :=
  { h with
    slot := ⟨status, data⟩
    ready := true
    work := none
    state := if h.state = .workingBusy then .workingBusy else .idle }

/-- The Host Port with a command that completes later (R168, R174). -/
def HostPort.outstanding (h : HostPort) (w : Work) : HostPort :=
  { h with
    ready := false
    work := some w
    state := if h.state = .workingBusy then .workingBusy else .working }

/-- The machine after a host command that completes with this reply and changes nothing else. -/
def State.replied (s : State) (status : Status) (data : List Byte) : State :=
  { s with host := s.host.completed status data }

/-- The first check of R15 passes: the arguments of a DEFINE are in range and allowed together. -/
def DefineArgumentsOk (handle : Half) (role len permits : Byte) (mask : Half) : Prop :=
  handle.toNat ≤ 511 ∧ (role = 0x01#8 ∨ role = 0x02#8) ∧ 1 ≤ len.toNat ∧ len.toNat ≤ 64 ∧ mask.toNat < 8192 ∧
    (role = 0x02#8 → permits.extractLsb' 0 3 = 0#3) ∧ (permits.getLsbD 0 = true → len.toNat ≤ 16)

/-- The second check of R17 passes: the arguments of an AMEND of an entry. -/
def AmendArgumentsOk (x : Entry) (selector permits : Byte) (mask : Half) : Prop :=
  1 ≤ selector.toNat ∧ selector.toNat ≤ 7 ∧
    (selector.getLsbD 0 = true → x.role = .mirror → permits.extractLsb' 0 3 = 0#3) ∧
    (selector.getLsbD 0 = true → permits.getLsbD 0 = true → x.length ≤ 16) ∧
    (selector.getLsbD 1 = true → mask.toNat < 8192)

/-! ## States of an entry -/

/-- The four states in which the Handle Index holds the entry (R9). -/
def EntryState.indexed : EntryState → Bool
  | .draft | .live | .stale | .retiring => true
  | .vacant | .ended => false

/-- The three states in which a record command other than DESCRIBE and RETIRE is accepted (R19). -/
def EntryState.working : EntryState → Bool
  | .draft | .live | .stale => true
  | .vacant | .retiring | .ended => false

/-- The cells of an entry's copies. -/
def Entry.cells (x : Entry) : List CellNo :=
  x.current.getD [] ++ x.staged.getD [] ++ (x.held.map HeldCopy.cells).getD []

/-- The cells of every copy of every entry. -/
def State.copyCells (s : State) : List CellNo := (List.finRange 128).flatMap fun e => (s.entry e).cells

/-- The entry a waiting TAKE is to make VACANT (R159). -/
def Work.vacating : Option Work → Option EntryNo
  | some (.vacate e _) => some e
  | some (.handed _) | some .offline | some .rouse | some .restart | none => none

/-- The bytes a waiting TAKE is to reply (R159). -/
def Work.waitingReply : Option Work → List Byte
  | some (.vacate _ reply) => reply
  | some (.handed _) | some .offline | some .rouse | some .restart | none => []

/-- A slot that holds or reserves a LINE claim on an entry (R38, R80). -/
def Slot.lineClaims (x : Slot) (e : EntryNo) : Bool :=
  match x with
  | .reserved d _ _ _ => decide (d = e)
  | .heldLine d _ _ => decide (d = e)
  | .free | .heldHost _ => false

/-- An entry as every reset leaves it (R2). -/
def Entry.isReset (x : Entry) : Prop :=
  x.state = .vacant ∧ x.version = 0 ∧ x.age = 0 ∧ x.current = none ∧ x.staged = none ∧ x.held = none ∧
    x.staleSeen = false ∧ x.claimedSeen = false

/-- An attention record as every reset leaves it (R154). -/
def AttentionRecord.isReset (r : AttentionRecord) : Prop :=
  r.posting = .closed ∧ r.mask = 0x1000#13 ∧ r.causes = 0#13

/-- Everything but the Host Port is as it was. -/
def OnlyHostChanged (s t : State) : Prop := t = { s with host := t.host }

/-- The Record Table but for one entry, the Handle Index, the mark and the pin are as they were. -/
def TableKeptBut (e : EntryNo) (s t : State) : Prop :=
  (∀ d : EntryNo, d ≠ e → t.entry d = s.entry d) ∧ t.table.index = s.table.index ∧
    t.table.inFlight = s.table.inFlight ∧ t.table.pin = s.table.pin

/-- The command queue and the two counters of free orders are as they were. -/
def QueueKept (s t : State) : Prop :=
  t.pending = s.pending ∧ t.orderCount = s.orderCount ∧ t.requestCount = s.requestCount

/-- Every byte outside the first `size` bytes of a copy reads as it did. -/
def BytesKeptBut (cells : List CellNo) (first size : Nat) (s t : State) : Prop :=
  ∀ a : Nat, (∀ o : Nat, first ≤ o → o < first + size → recordAddress cells o ≠ some a) →
    Memory.read t.pool.bytes a = Memory.read s.pool.bytes a

/-- Some bytes of a copy, from byte `first` onward, read as this data. -/
def BytesHold (cells : List CellNo) (first : Nat) (data : List Byte) (t : State) : Prop :=
  ∀ i : Nat, i < data.length → t.pool.peek cells (first + i) = data.getD i 0x00#8

/-- Every byte of every cell reads as it did. -/
def BytesKept (s t : State) : Prop := ∀ a : Nat, Memory.read t.pool.bytes a = Memory.read s.pool.bytes a

/-- A header received up to H2 in HEADER: the next good character is its HC (R93, R95). -/
def State.awaitsCheck (s : State) (handle : Handle) (action : BitVec 3) (tag : Tag) : Prop :=
  s.line.mode = .listen ∧ s.line.phase = .header ∧
    s.line.header = [syncByte, encodeH1 handle, encodeH2 handle action tag] ∧
    s.line.check = crcRun crcStart [encodeH1 handle, encodeH2 handle action tag]

/-! ## Phases -/

/-- The Line Unit at the end of a frame in flight: the phase, the sequence context and the landed bytes given, the
receivers at rest, and every other field but the check register and the start edge seen as it was. -/
def LineSettles (p : Phase) (seq : Option SequenceContext) (landing : List Byte) (s t : State) : Prop :=
  t.line = { s.line with
    phase := p, seq := seq, landing := landing, assembling := false, edge := false, breakSeen := false
    runBefore := false, collided := false, txd := .released
    check := t.line.check, startSeen := t.line.startSeen }

/-- The Line Unit at the recognition of a break (R90, R102, R150): a new frame context in IN_BREAK, the idle timer
restarted, the sequence context given, and every other field as it was. -/
def LineUnit.atBreak (l : LineUnit) (seq : Option SequenceContext) : LineUnit :=
  { l with
    phase := .inBreak, frame := {}, seq := seq, assembling := false, edge := false, breakSeen := true
    runBefore := false, collided := false, txd := .released, idle := some 0, idlePending := false }

/-- The next tick brings an idle expiry in WAITING, SKIPPING or RECOVERING (R150). -/
def State.idleExpiryDue (s : State) : Prop :=
  s.line.mode = .listen ∧ s.line.idleLimit ≠ 0 ∧
    (∃ n : Nat, s.line.idle = some n ∧ n + 1 = 1000 * s.line.idleLimit) ∧
    (s.line.phase = .waiting ∨ s.line.phase = .skipping ∨ s.line.phase = .recovering)

/-! ## Giving up a pin, a sequence and a frame -/

/-- The pin is released (R46): a current copy stays as it is, and a held copy's cells join the tail of the free list. -/
def PinReleased (s t : State) : Prop :=
  t.table.pin = none ∧
    ((∀ p : Pin, s.table.pin = some p → p.kind = .current) →
      t.table.entries = s.table.entries ∧ t.pool.free = s.pool.free) ∧
    ∀ p : Pin, s.table.pin = some p → p.kind = .held →
      t.entry p.entry = { s.entry p.entry with held := none } ∧
        (∀ d : EntryNo, d ≠ p.entry → t.entry d = s.entry d) ∧
        t.pool.free = s.pool.free ++ ((s.entry p.entry).held.map HeldCopy.cells).getD []

/-- What an open sequence gives up when it closes early (R46, R53, R105): SERVE its pin, ASSEMBLE its staged copy, whose
cells join the tail of the free list; with no sequence, nothing. -/
def SequenceGivenUp (s t : State) : Prop :=
  (s.line.seq = none →
    t.table.entries = s.table.entries ∧ t.table.pin = s.table.pin ∧ t.pool.free = s.pool.free) ∧
  ∀ q : SequenceContext, s.line.seq = some q →
    (q.kind = .serve → PinReleased s t) ∧
    (q.kind = .assemble → t.table.pin = s.table.pin ∧
      t.entry q.entry = { s.entry q.entry with staged := none } ∧
      (∀ d : EntryNo, d ≠ q.entry → t.entry d = s.entry d) ∧
      t.pool.free = s.pool.free ++ (s.entry q.entry).staged.getD [])

/-- The machine with its open sequence, if any, closed and nothing else changed (R105, step 1). -/
def SequenceClosed (s t : State) : Prop :=
  SequenceGivenUp s t ∧
    t = { s with
      table := { s.table with entries := t.table.entries, pin := t.table.pin }
      pool := { s.pool with free := t.pool.free }
      line := { s.line with seq := none } }

/-- The postings of an early close: SEG_BROKEN against the sequence's entry (R114). -/
def State.brokenPosting (s : State) (u : AttentionUnit) : AttentionUnit :=
  match s.line.seq with
  | none => u
  | some q => u.post q.entry (1#13 <<< 7)

/-- What a good header makes of the open sequence, and the Attention Unit after it (R104, R105): an expected continuation
clears the hold, any other header closes the sequence with SEG_BROKEN. -/
def MeetsSequence (s : State) (handle : Handle) (a : Action) (tag : Tag) (base : State) (posted : AttentionUnit) : Prop :=
  (∃ q : SequenceContext, s.line.seq = some q ∧ a = .fetch ∧ q.handle = handle ∧ q.next = tag.toNat ∧
      base = { s with line := { s.line with seq := some { q with hold := none } } } ∧ posted = s.attention) ∨
    ((∀ q : SequenceContext, s.line.seq = some q → ¬ (a = .fetch ∧ q.handle = handle ∧ q.next = tag.toNat)) ∧
      SequenceClosed s base ∧ posted = s.brokenPosting s.attention)

/-- What the end of a frame on a record that is not RETIRING leaves when the frame has failed, whichever way (R71, R103,
R110, R127, R133, R137): nothing takes effect, the mark goes, a FETCH answer gives up its pin and its sequence, a capture
its sequence, and a CLAIM its reservation. `after` is the Attention Unit before the frame's own cause or condition. -/
structure FrameFails (a : Action) (e : EntryNo) (s t : State) (after : AttentionUnit) : Prop where
  mark : t.table.inFlight = none
  index : t.table.index = s.table.index
  bytes : t.pool.bytes = s.pool.bytes
  answer : a = .fetch → (s.entry e).role = .source → (∀ q : SequenceContext, s.line.seq = some q → q.kind = .serve) →
    PinReleased s t
  capture : a = .fetch → (s.entry e).role = .mirror → SequenceGivenUp s t
  other : a ≠ .fetch → t.table = { s.table with inFlight := none } ∧ t.pool = s.pool
  claims : a ≠ .claim → t.claims = s.claims
  unclaimed : a = .claim → (∀ k : SlotNo, (s.claims.slot k).isReserved = false) →
    t.claims = s.claims ∧ after = s.attention
  reserved : ∀ (k : SlotNo) (tag : Tag) (lease : Nat) (renewal : Bool), a = .claim →
    s.claims.slot k = .reserved e tag lease renewal →
    t.claims = { s.claims with slots := s.claims.slots.set k.val .free } ∧
      after = if renewal = true then s.attention.post e (1#13 <<< 11) else s.attention
  broken : a = .fetch → after = s.brokenPosting s.attention
  quiet : a ≠ .fetch → a ≠ .claim → after = s.attention

/-! ## The request for an answer -/

/-- A line CLAIM decided, by the first row of R69 that holds, with the slot reserved, DENIED posted and the code kept. A
slot RESERVED already names the entry of another frame in flight, so no row speaks of one (log 16). -/
def ClaimDecided (s : State) (e : EntryNo) (tag : Tag) (t : State) : Prop :=
  ∃ (code : AnswerCode) (slots : Vector Slot 8) (after : AttentionUnit),
    t = { s with
      claims := { s.claims with slots := slots }
      attention := after
      line := { s.line with frame := { s.line.frame with asking := false, code := some code } } } ∧
    ((((s.entry e).permits.claimOk = false ∨ tag = 0#4) ∧ code = .notPermitted ∧ slots = s.claims.slots ∧
        after = s.attention.post e (1#13 <<< 9)) ∨
      ((s.entry e).permits.claimOk = true ∧ tag ≠ 0#4 ∧
        ((∃ k : SlotNo, s.claims.slot k = .heldHost e ∧ code = .heldByOther ∧ slots = s.claims.slots ∧
            after = s.attention.post e (1#13 <<< 9)) ∨
          (∃ (k : SlotNo) (u : Tag) (lease : Nat), s.claims.slot k = .heldLine e u lease ∧ u ≠ tag ∧
            code = .heldByOther ∧ slots = s.claims.slots ∧ after = s.attention.post e (1#13 <<< 9)) ∨
          (∃ (k : SlotNo) (lease : Nat), s.claims.slot k = .heldLine e tag lease ∧ code = .renewed ∧
            slots = s.claims.slots.set k.val (.reserved e tag lease true) ∧ after = s.attention) ∨
          ((∀ k : SlotNo, (s.claims.slot k).names e = false) ∧ after = s.attention ∧
            ((∃ k : SlotNo, s.claims.slot k = .free ∧ (∀ j : SlotNo, j < k → s.claims.slot j ≠ .free) ∧
                code = .granted ∧ slots = s.claims.slots.set k.val (.reserved e tag 0 false)) ∨
              ((∀ k : SlotNo, s.claims.slot k ≠ .free) ∧ code = .claimsFull ∧ slots = s.claims.slots))))))

/-- A line RELEASE decided, with no slot changed and the code kept (R75). -/
def ReleaseDecided (s : State) (e : EntryNo) (tag : Tag) (t : State) : Prop :=
  ∃ code : AnswerCode,
    t = { s with line := { s.line with frame := { s.line.frame with asking := false, code := some code } } } ∧
    (((∃ (k : SlotNo) (lease : Nat), s.claims.slot k = .heldLine e tag lease) ∧ code = .released) ∨
      ((∀ (k : SlotNo) (lease : Nat), s.claims.slot k ≠ .heldLine e tag lease) ∧ code = .notHolder))

/-- The four bytes of a PROBE answer read: L, the state with RETIRING as 4, the version, the claim byte (R83, R120). -/
def ProbeRead (s : State) (e : EntryNo) (t : State) : Prop :=
  ∃ (state : EntryState) (stateByte claim : Byte),
    t = { s with line := { s.line with frame := { s.line.frame with
      asking := false
      reply := [BitVec.ofNat 8 (s.entry e).length, stateByte, BitVec.ofNat 8 (s.entry e).version.toNat, claim] } } } ∧
    (s.entry e).state = state ∧
    (state = .draft ∧ stateByte = 0x01#8 ∨ state = .live ∧ stateByte = 0x02#8 ∨
      state = .stale ∧ stateByte = 0x03#8 ∨ state = .retiring ∧ stateByte = 0x04#8) ∧
    (((∀ k : SlotNo, (s.claims.slot k).names e = false) ∧ claim = 0x00#8) ∨
      ((∃ k : SlotNo, s.claims.slot k = .heldHost e) ∧ claim = 0x10#8) ∨
      (∃ (k : SlotNo) (u : Tag) (lease : Nat), s.claims.slot k = .heldLine e u lease ∧
        claim = BitVec.ofNat 8 (0x20 + u.toNat)))

/-- A FETCH answer's pin placed, or passed on by the open sequence, and its tag byte built: the pinned copy's version,
STALE where the state is STALE, CLAIMED where a slot names the entry (R44, R62, R83, R108). -/
def FetchTagged (s : State) (e : EntryNo) (t : State) : Prop :=
  ∃ (pin : Pin) (version : Version),
    t = { s with
      table := { s.table with pin := some pin }
      line := { s.line with frame := { s.line.frame with
        asking := false
        reply := [BitVec.ofNat 8 (version.toNat + (if (s.entry e).state = .stale then 64 else 0) +
          (if ∃ k : SlotNo, (s.claims.slot k).names e = true then 128 else 0))] } } } ∧
    ((s.line.seq = none ∧ pin = ⟨e, .current, .frame⟩ ∧ version = (s.entry e).version) ∨
      (∃ p : Pin, s.line.seq.isSome = true ∧ s.table.pin = some p ∧ p.entry = e ∧ pin = { p with owner := .frame } ∧
        ((p.kind = .current ∧ version = (s.entry e).version) ∨
          (p.kind = .held ∧ ∃ copy : HeldCopy, (s.entry e).held = some copy ∧ version = copy.version))))

/-- The request for the answer of each action is taken (R69, R75, R108, R120). -/
def RequestTaken (s : State) (a : Action) (e : EntryNo) (tag : Tag) (t : State) : Prop :=
  (a = .claim ∧ ClaimDecided s e tag t) ∨ (a = .release ∧ ReleaseDecided s e tag t) ∨
    (a = .probe ∧ ProbeRead s e t) ∨ (a = .fetch ∧ FetchTagged s e t)

/-- The machine at the decode of a header that is answered, whose request is sent and not yet taken (R97, R99, R105):
`base` is what the header made of the open sequence. -/
def State.enteredSpace (base : State) (posted : AttentionUnit) (handle : Handle) (a : Action) (tag : Tag) (e : EntryNo)
    (n : Nat) (asking : Bool) : State :=
  { base with
    table := { base.table with inFlight := some e }
    attention := posted
    line := { base.line with
      phase := .space, assembling := false
      frame := { handle := some handle, action := some a, tag := some tag, entry := some e
                 found := some ⟨(base.entry e).state, (base.entry e).role, (base.entry e).length⟩, asking := asking
                 segment := if a = .fetch then some tag else none
                 n := some n, deadline := some (12 * n + 16) } } }

/-- A header whose request for the answer is taken at once, unless a host command stands handed to its block: then the
order of the two is free (R66, R105, R108, log 10). -/
def AnswersHeader (s asked taken : State) : Prop :=
  (Work.isHanded s.host.work = false → exec (.headerCharacter s.line.check false) s = .next taken) ∧
  (Work.isHanded s.host.work = true → exec (.headerCharacter s.line.check false) s = .next
    { (if Config.requestWaits s.requestCount = true then asked else taken) with
      requestCount := s.requestCount + 1 })

/-! ## The invariants -/

/-- The bytes of the Cell Pool are in canonical form. -/
def MemoryOk (s : State) : Prop := Memory.wf s.pool.bytes = true

/-- The Line Unit outside LISTEN and its pins (R85, R101, R143, R150), what its flags say of the phase (R89, R98, R100),
and the fill of the landing buffer (R100, R102). -/
structure LineOk (s : State) : Prop where
  quiet : s.line.mode ≠ .listen →
    s.line.phase = .waiting ∧ s.line.frame = {} ∧ s.line.seq = none ∧ s.line.landing = [] ∧ s.line.idle = none ∧
      s.line.idlePending = false
  idleRuns : s.line.mode = .listen → s.line.idle.isSome = true
  pulse : s.line.txd = .pulse → s.line.mode = .rousing
  answer : s.line.txd = .answer → s.line.mode = .listen ∧ s.line.phase = .answering
  rouseSeen : s.line.rouseSeen = true → s.line.mode = .dormant
  deferred : s.line.idlePending = true → s.line.phase.quiet = false
  runBefore : s.line.runBefore = true →
    s.line.mode = .listen ∧ (s.line.phase = .waiting ∨ s.line.phase = .recovering)
  edge : s.line.edge = true → s.line.phase = .receiving
  asking : s.line.frame.asking = true → s.line.phase = .space
  landing : s.line.landing.length ≤ 18
  receiving : s.line.phase = .receiving → s.line.landing.length < s.line.frame.n.getD 0 ∧ s.line.frame.n.getD 0 ≤ 18

/-- The five states of the Host Port and what each says of READY, CS and the command outstanding (R165, R168), and what
the reply slot and the command buffer may hold (R165, R169, R175). -/
structure HostOk (s : State) : Prop where
  initialising : s.host.state = .initialising →
    s.host.ready = false ∧ s.host.work = none ∧ s.host.stage ≠ .complete ∧ s.host.sdo = none ∧
      (s.host.csLow = true → s.host.stage = .held)
  idle : s.host.state = .idle →
    s.host.ready = true ∧ s.host.csLow = false ∧ s.host.work = none ∧ s.host.stage = .complete
  shifting : s.host.state = .shifting →
    s.host.ready = true ∧ s.host.csLow = true ∧ s.host.work = none ∧ s.host.stage = .complete
  working : s.host.state = .working →
    s.host.ready = false ∧ s.host.csLow = false ∧ s.host.work ≠ none ∧ s.host.stage = .complete
  workingBusy : s.host.state = .workingBusy →
    s.host.csLow = true ∧ s.host.stage ≠ .held ∧ (s.host.stage = .initialising → s.host.work = none) ∧
      (s.host.ready = true ↔ s.host.work = none ∧ s.host.stage = .complete)
  rousing : s.line.mode = .rousing ↔ s.host.work = some .rouse
  released : s.host.csLow = false → s.host.sdo = none
  neverBusy : s.host.slot.status ≠ .busy
  replyFits : s.host.slot.data.length ≤ 40 ∧ (Work.waitingReply s.host.work).length ≤ 40
  bufferFits : s.host.buffer.length ≤ 42

/-- The in-flight mark and the frame in flight name one entry, which stands in the Handle Index (R12); an entry is
RETIRING only while it is marked (R11, R25); what a waiting TAKE is to vacate, and what is ENDING, is ENDED, and the
former is ENDING no more (R159). -/
structure FlightOk (s : State) : Prop where
  listening : s.line.phase.inFlight = true → s.line.mode = .listen
  marked : s.line.phase.inFlight = true → s.line.frame.entry.isSome = true ∧ s.table.inFlight = s.line.frame.entry
  unmarked : s.line.phase.inFlight = false → s.table.inFlight = none
  standing : ∀ e : EntryNo, s.table.inFlight = some e → (s.entry e).state.indexed = true
  retiring : ∀ e : EntryNo, (s.entry e).state = .retiring → s.table.inFlight = some e
  vacating : ∀ e : EntryNo, Work.vacating s.host.work = some e →
    (s.entry e).state = .ended ∧ (s.attention.record e).posting ≠ .ending
  ending : ∀ e : EntryNo, (s.attention.record e).posting = .ending → (s.entry e).state = .ended

/-- The posting state an entry's state calls for (R155): an ENDED entry that a TAKE has returned is CLOSED already
(R159). -/
def postingFor (state : EntryState) (taken : Bool) : PostingState :=
  match state with
  | .draft | .live | .stale => .opened
  | .vacant | .retiring => .closed
  | .ended => if taken then .closed else .ending

/-- The attention list, the masks, the posting states and ATTN (R154 to R157, R164). -/
structure AttentionOk (s : State) : Prop where
  attn : s.attention.attn = (!s.attention.list.isEmpty || s.attention.conditions != 0#8)
  once : s.attention.list.Nodup
  listed : ∀ e : EntryNo, e ∈ s.attention.list ↔ (s.attention.record e).causes ≠ 0#13
  masked : ∀ e : EntryNo, (s.attention.record e).mask.getLsbD 12 = true
  closedEmpty : ∀ e : EntryNo, (s.attention.record e).posting = .closed → (s.attention.record e).causes = 0#13
  follows : ∀ e : EntryNo, (s.attention.record e).posting =
    postingFor (s.entry e).state (decide (Work.vacating s.host.work = some e))

/-- The Handle Index holds exactly the handles of the entries in DRAFT, LIVE, STALE and RETIRING (R9). -/
def IndexOk (s : State) : Prop :=
  ∀ (h : Handle) (e : EntryNo),
    s.table.lookup h = some e ↔ (s.entry e).state.indexed = true ∧ (s.entry e).handle = h

/-- The ranges of an entry's fields and of the configuration (R3 to R5, R7, R56, R144). -/
structure RangesOk (s : State) : Prop where
  length : ∀ e : EntryNo, (s.entry e).state ≠ .vacant → 1 ≤ (s.entry e).length ∧ (s.entry e).length ≤ 64
  mirrorPermits : ∀ e : EntryNo, (s.entry e).role = .mirror → (s.entry e).permits.any = false
  storePermit : ∀ e : EntryNo, (s.entry e).permits.storeOk = true → (s.entry e).length ≤ 16
  limit : ∀ e : EntryNo, (s.entry e).limit ≤ 65535
  age : ∀ e : EntryNo, (s.entry e).age ≤ 65535
  ageAtRest : ∀ e : EntryNo,
    (s.entry e).state = .vacant ∨ (s.entry e).state = .draft ∨ (s.entry e).state = .ended → (s.entry e).age = 0
  sourceFlags : ∀ e : EntryNo, (s.entry e).role = .source →
    (s.entry e).staleSeen = false ∧ (s.entry e).claimedSeen = false
  hold : 40 ≤ s.line.hold ∧ s.line.hold ≤ 4000
  idleLimit : s.line.idleLimit ≤ 255

/-- What a slot that is not FREE may be (R67): its entry is a SOURCE that stands in the Handle Index, its tag and its
lease are in range, and a RESERVED slot is the reservation of the CLAIM frame in flight. -/
def slotOk (s : State) : Slot → Prop
  | .free => True
  | .heldHost e => (s.entry e).role = .source ∧ (s.entry e).state.indexed = true
  | .heldLine e t lease =>
    (s.entry e).role = .source ∧ (s.entry e).state.indexed = true ∧ t ≠ 0#4 ∧ 1 ≤ lease ∧ lease ≤ 60000
  | .reserved e t lease _ =>
    (s.entry e).role = .source ∧ (s.entry e).state.indexed = true ∧ t ≠ 0#4 ∧ lease ≤ 60000 ∧
      (s.line.phase = .space ∨ s.line.phase = .answering) ∧ s.line.frame.action = some .claim ∧
      s.line.frame.entry = some e ∧ s.line.frame.tag = some t

/-- The Claim Table (R67, R74). A CLAIM that waits for its decision is one of a SOURCE (R69, R106). -/
structure ClaimsOk (s : State) : Prop where
  slots : ∀ k : SlotNo, slotOk s (s.claims.slot k)
  unique : ∀ (e : EntryNo) (j k : SlotNo),
    (s.claims.slot j).names e = true → (s.claims.slot k).names e = true → j = k
  lease : 10 ≤ s.claims.lease ∧ s.claims.lease ≤ 60000
  asking : ∀ e : EntryNo, s.line.phase = .space → s.line.frame.asking = true → s.line.frame.action = some .claim →
    s.line.frame.entry = some e → (s.entry e).role = .source

/-- The copies an entry may hold in each state and role (R11, R32, R33), and each one's number of cells. -/
structure EntryCopiesOk (x : Entry) : Prop where
  absent : x.state = .vacant ∨ x.state = .ended → x.cells = [] ∧ x.current = none ∧ x.staged = none ∧ x.held = none
  draft : x.state = .draft → x.current = none ∧ x.held = none
  present : x.state = .live ∨ x.state = .stale → x.current.isSome = true
  mirror : x.role = .mirror → x.held = none
  sizes : (∀ c ∈ x.current, c.length = x.segments) ∧ (∀ c ∈ x.staged, c.length = x.segments) ∧
    (∀ h ∈ x.held, h.cells.length = x.segments)

/-- The pin marks a copy that exists, of a SOURCE, and belongs to the FETCH answer or to the SERVE sequence it is for
(R43 to R46). -/
def pinOk (s : State) (p : Pin) : Prop :=
  (s.entry p.entry).role = .source ∧
  (match p.kind with
    | .current => (s.entry p.entry).current.isSome = true
    | .held => (s.entry p.entry).held.isSome = true) ∧
  (match p.owner with
    | .frame => (s.line.phase = .space ∨ s.line.phase = .answering) ∧ s.line.frame.asking = false ∧
        s.line.frame.action = some .fetch ∧ s.line.frame.entry = some p.entry
    | .sequence => (s.line.seq.map fun q => (q.kind, q.entry)) = some (.serve, p.entry))

/-- What an open sequence says of its entry, its copies and the frame in flight (R104, R111, R112). -/
def sequenceOk (s : State) (q : SequenceContext) : Prop :=
  (s.entry q.entry).state.indexed = true ∧ (s.entry q.entry).handle = q.handle ∧
  1 ≤ q.next ∧ q.next < (s.entry q.entry).segments ∧
  (match q.kind with
    | .serve => q.version = none ∧ (s.table.pin.map fun p => p.entry) = some q.entry
    | .assemble => q.version.isSome = true ∧ (s.entry q.entry).role = .mirror ∧
        (s.entry q.entry).staged.isSome = true) ∧
  (q.hold = none ↔ s.line.phase.inFlight = true) ∧
  (s.line.phase.inFlight = true →
    s.line.frame.action = some .fetch ∧ s.line.frame.entry = some q.entry ∧
      (s.line.frame.segment.map BitVec.toNat) = some q.next)

/-- Copies, the pin and the sequence context (R11, R32, R33, R43 to R47, R111). -/
structure CopiesOk (s : State) : Prop where
  entries : ∀ e : EntryNo, EntryCopiesOk (s.entry e)
  held : ∀ e : EntryNo, (s.entry e).held.isSome = true →
    (s.table.pin.map fun p => (p.entry, p.kind)) = some (e, .held)
  assembly : ∀ e : EntryNo, (s.entry e).role = .mirror → (s.entry e).staged.isSome = true →
    (s.line.seq.map fun q => (q.kind, q.entry)) = some (.assemble, e)
  pin : ∀ p ∈ s.table.pin, pinOk s p
  sequence : ∀ q ∈ s.line.seq, sequenceOk s q
  answering : (s.line.phase = .space ∨ s.line.phase = .answering) → s.line.frame.asking = false →
    s.line.frame.action = some .fetch →
    (s.table.pin.map fun p => (some p.entry, p.owner)) = some (s.line.frame.entry, .frame)
  asking : ∀ e : EntryNo, s.line.frame.asking = true → s.line.frame.action = some .fetch →
    s.line.frame.entry = some e → (s.entry e).role = .source ∧ (s.entry e).current.isSome = true

/-- Each of the 384 cells is on the free list once, or once in one copy (R28). -/
def CellsOk (s : State) : Prop := ∀ c : CellNo, (s.pool.free ++ s.copyCells).count c = 1

end Sys2Proof.Machine
end

