-- ==== Sys2Proof/Certificates/Slice0/Obligations.lean ====
section
/-! DEFINITION. The statements about the HL128 that are to be proved. -/

open Sys2Proof Sys2Proof.Machine

/-! ## The queue, the answers and the refusals -/

/-- The row's form (log 22): a step carries out the command at the front of the queue with the queue's rest, and on an
empty queue the part idles. -/
def Obligations.StepTakesTheFrontCommand : Prop :=
  (∀ (c : Instr) (rest : List Instr) (s : State),
    s.pending = c :: rest → step s = exec c { s with pending := rest }) ∧
  ∀ s : State, s.pending = [] → step s = .next s

/-- 95: every step is whole and indivisible, and no command of the part stops it: each answers a next state, leaves the
queue alone, and only a TICK outside a reset draws a posting order (log 7); only a header decoded while a host command
stands handed to its block draws whether its request waits (log 10). -/
def Obligations.EveryCommandAnswersAndKeepsTheQueue : Prop :=
  ∀ (c : Instr) (s : State), ∃ t : State, exec c s = .next t ∧ t.pending = s.pending ∧
    t.orderCount = s.orderCount + (if c = .tick ∧ s.host.stage = .complete then 1 else 0) ∧
    (t.requestCount = s.requestCount ∨ Work.isHanded s.host.work = true ∧ t.requestCount = s.requestCount + 1 ∧
      ∃ (b : Byte) (dominant : Bool), c = .headerCharacter b dominant)

/-- R173, R175: a host command that completes with a status other than DONE has changed nothing but the Host Port. -/
def Obligations.RefusedCommandChangesNoBlock : Prop :=
  ∀ (c : Instr) (s t : State), c.isHostCommand = true → exec c s = .next t → t.host.work = none →
    t.host.slot.status ≠ .done → OnlyHostChanged s t

/-- R19: the checks every record command that names an entry meets before its own, in their order. -/
def Obligations.RecordCommandsRefuseInOrder : Prop :=
  ∀ (c : Instr) (b : Byte) (late : Bool) (s : State), c.namedEntry = some (b, late) → s.Takes c →
    (128 ≤ b.toNat → exec c s = .next (s.replied .badArgument [])) ∧
    ∀ h : b.toNat < 128,
      ((s.entry ⟨b.toNat, h⟩).state = .vacant → exec c s = .next (s.replied .noEntry [])) ∧
      ((s.entry ⟨b.toNat, h⟩).state = .retiring ∨ (s.entry ⟨b.toNat, h⟩).state = .ended → late = false →
        exec c s = .next (s.replied .wrongState []))

/-! ## Formats and the check -/

/-- R180, R167: the frame of every well-formed host command is judged a whole frame and read back as that command, with
every parameter at every value; a STAGE frame carries 1 to 32 data bytes. -/
def Obligations.CommandFramesReadBack : Prop :=
  ∀ (i : Instr) (code : Byte) (params tail : List Byte), encodeCommand i = some (code, params) → portRefusal i = none →
    decodeCommand code params = .command i ∧
    (i ≠ .nop → judgeFrame (code :: BitVec.ofNat 8 params.length :: params ++ tail) = .frame code params)

/-- R94, R179: the two header bytes of every handle, action field and tag give back all three, and no two headers share
their bytes. -/
def Obligations.HeaderBytesReadBack : Prop :=
  (∀ (h : Handle) (a : BitVec 3) (t : Tag),
    headerHandle (encodeH1 h) (encodeH2 h a t) = h ∧ headerAction (encodeH2 h a t) = a ∧
      headerTag (encodeH2 h a t) = t) ∧
  ∀ h1 h2 : Byte, encodeH1 (headerHandle h1 h2) = h1 ∧
    encodeH2 (headerHandle h1 h2) (headerAction h2) (headerTag h2) = h2

/-- R95, R96, R135: the check register is a bijection of each byte run through it, so two responses (or headers) that
differ in one byte alone never carry the same check. -/
def Obligations.OneWrongByteChangesTheCheck : Prop :=
  ∀ (r a b : Byte) (before after : List Byte),
    crcRun r (before ++ a :: after) = crcRun r (before ++ b :: after) → a = b

/-! ## The Attention Unit -/

/-- R156, R164: one posting, on a record that is CLOSED, and on one that is not: the causes in the mask join the set,
the entry joins the tail of the list when its set becomes nonempty, ATTN follows, and nothing else moves. -/
def Obligations.PostingKeepsWhatTheMaskNames : Prop :=
  ∀ (u : AttentionUnit) (e : EntryNo) (c : CauseSet),
    u.attn = (!u.list.isEmpty || u.conditions != 0#8) →
    (∀ d : EntryNo, d ≠ e → (u.post e c).record d = u.record d) ∧ (u.post e c).conditions = u.conditions ∧
    ((u.record e).posting = .closed → u.post e c = u) ∧
    ((u.record e).posting ≠ .closed →
      (u.post e c).record e =
        { u.record e with causes := (u.record e).causes ||| (c &&& (u.record e).mask) } ∧
      (u.post e c).list =
        (if (u.record e).causes = 0#13 ∧ c &&& (u.record e).mask ≠ 0#13 then u.list ++ [e] else u.list)) ∧
    (u.post e c).attn = (!(u.post e c).list.isEmpty || u.conditions != 0#8)

/-- R158, R159: TAKE on an empty list, on an entry that is not ENDING, and on an ENDING entry, whose command waits for
the Table Controller; and TAKE_ENDED_VACATE, which makes that entry VACANT and gives the reply. -/
def Obligations.TakeReturnsTheHeadOfTheList : Prop :=
  (∀ s : State, s.Takes .take → s.attention.list = [] → exec .take s = .next (s.replied .empty [])) ∧
  (∀ (s : State) (e : EntryNo) (rest : List EntryNo) (p : PostingState), s.Takes .take →
    s.attention.list = e :: rest → (s.attention.record e).posting = p →
    ∃ (t : State) (reply : List Byte), exec .take s = .next t ∧
      reply = [BitVec.ofNat 8 e.val,
        BitVec.ofNat 8 ((s.attention.record e).handle.toNat / 256),
        BitVec.ofNat 8 ((s.attention.record e).handle.toNat % 256),
        BitVec.ofNat 8 ((s.attention.record e).causes.toNat / 256),
        BitVec.ofNat 8 ((s.attention.record e).causes.toNat % 256),
        if p = .ending then 0x01#8 else 0x00#8] ∧
      t.host = (if p = .ending then s.host.outstanding (.vacate e reply) else s.host.completed .done reply) ∧
      t.attention.list = rest ∧
      t.attention.record e =
        { s.attention.record e with causes := 0#13, posting := if p = .ending then .closed else p } ∧
      (∀ d : EntryNo, d ≠ e → t.attention.record d = s.attention.record d) ∧
      t.attention.conditions = s.attention.conditions ∧
      t.attention.attn = (!rest.isEmpty || s.attention.conditions != 0#8) ∧
      t = { s with host := t.host, attention := t.attention }) ∧
  (∀ (s : State) (e : EntryNo) (reply : List Byte), s.host.work = some (.vacate e reply) →
    ∃ t : State, exec .takeEndedVacate s = .next t ∧ (t.entry e).state = .vacant ∧ (t.entry e).cells = [] ∧
      TableKeptBut e s t ∧ t.host = s.host.completed .done reply ∧
      t = { s with table := t.table, host := t.host })

/-- R163, R164: LINE_STATUS gives the mode, the phase and the condition set, and empties the set; ATTN stays asserted
while entries wait. -/
def Obligations.LineStatusReportsAndEmptiesTheConditions : Prop :=
  ∀ s : State, s.Takes .lineStatus →
    exec .lineStatus s = .next { s.replied .done [s.line.mode.code, s.line.phase.code, s.attention.conditions] with
      attention := { s.attention with conditions := 0#8, attn := !s.attention.list.isEmpty } }

/-! ## Defining, amending, finding and describing records -/

/-- R15, R16, R155, R161: the three checks of a DEFINE, in their order; one that passes takes the lowest-numbered VACANT
entry into DRAFT with its arguments and RETIRED added to its mask, opens its attention record, adds its handle to the
Handle Index and replies the entry number. That the entry's mark of an amended limit is clear is the model's choice
(log 6). -/
def Obligations.DefineRefusesOrMakesADraft : Prop :=
  ∀ (handle : Half) (role len permits : Byte) (limit mask : Half) (s : State),
    s.Takes (.define handle role len permits limit mask) →
    (¬ DefineArgumentsOk handle role len permits mask →
      exec (.define handle role len permits limit mask) s = .next (s.replied .badArgument [])) ∧
    (DefineArgumentsOk handle role len permits mask → s.table.lookup (handle.truncate 9) ≠ none →
      exec (.define handle role len permits limit mask) s = .next (s.replied .handleInUse [])) ∧
    (DefineArgumentsOk handle role len permits mask → s.table.lookup (handle.truncate 9) = none →
      (∀ e : EntryNo, (s.entry e).state ≠ .vacant) →
      exec (.define handle role len permits limit mask) s = .next (s.replied .tableFull [])) ∧
    ∀ (r : Role) (e : EntryNo), DefineArgumentsOk handle role len permits mask →
      s.table.lookup (handle.truncate 9) = none → (s.entry e).state = .vacant →
      (∀ d : EntryNo, d < e → (s.entry d).state ≠ .vacant) →
      role = 0x01#8 ∧ r = .source ∨ role = 0x02#8 ∧ r = .mirror →
      ∃ t : State, exec (.define handle role len permits limit mask) s = .next t ∧
        t.host = s.host.completed .done [BitVec.ofNat 8 e.val] ∧
        t.entry e =
          { state := .draft, handle := handle.truncate 9, role := r, length := len.toNat
            permits := ⟨permits.getLsbD 0, permits.getLsbD 1, permits.getLsbD 2⟩, limit := limit.toNat, amended := false
            age := 0, version := 0, current := none, staged := none, held := none, staleSeen := false
            claimedSeen := false } ∧
        (∀ d : EntryNo, d ≠ e → t.entry d = s.entry d) ∧
        t.table.lookup (handle.truncate 9) = some e ∧
        (∀ h : Handle, h ≠ handle.truncate 9 → t.table.lookup h = s.table.lookup h) ∧
        t.attention.record e = ⟨.opened, handle.truncate 9, mask.truncate 13 ||| 0x1000#13, 0#13⟩ ∧
        (∀ d : EntryNo, d ≠ e → t.attention.record d = s.attention.record d) ∧
        t = { s with
          host := t.host
          table := { t.table with inFlight := s.table.inFlight, pin := s.table.pin }
          attention := { s.attention with records := t.attention.records } }

/-- R17, R18, R61, R161: an AMEND of an entry in DRAFT, LIVE or STALE writes each field its selector names and no other,
whatever the age; a new limit is marked for the next tick, the first to use it; one that breaks a check of R17 is refused
BAD_ARGUMENT. -/
def Obligations.AmendWritesTheNamedFields : Prop :=
  ∀ (b selector permits : Byte) (mask limit : Half) (h : b.toNat < 128) (s : State),
    s.Takes (.amend b selector permits mask limit) → (s.entry ⟨b.toNat, h⟩).state.working = true →
    (¬ AmendArgumentsOk (s.entry ⟨b.toNat, h⟩) selector permits mask →
      exec (.amend b selector permits mask limit) s = .next (s.replied .badArgument [])) ∧
    (AmendArgumentsOk (s.entry ⟨b.toNat, h⟩) selector permits mask →
      ∃ t : State, exec (.amend b selector permits mask limit) s = .next t ∧ t.host = s.host.completed .done [] ∧
        t.entry ⟨b.toNat, h⟩ =
          { s.entry ⟨b.toNat, h⟩ with
            permits := if selector.getLsbD 0 = true then
              ⟨permits.getLsbD 0, permits.getLsbD 1, permits.getLsbD 2⟩ else (s.entry ⟨b.toNat, h⟩).permits
            limit := if selector.getLsbD 2 = true then limit.toNat else (s.entry ⟨b.toNat, h⟩).limit
            amended := if selector.getLsbD 2 = true then true else (s.entry ⟨b.toNat, h⟩).amended } ∧
        t.attention.record ⟨b.toNat, h⟩ =
          { s.attention.record ⟨b.toNat, h⟩ with
            mask := if selector.getLsbD 1 = true then mask.truncate 13 ||| 0x1000#13
              else (s.attention.record ⟨b.toNat, h⟩).mask } ∧
        (∀ d : EntryNo, d ≠ ⟨b.toNat, h⟩ → t.attention.record d = s.attention.record d) ∧
        TableKeptBut ⟨b.toNat, h⟩ s t ∧
        t = { s with
          host := t.host, table := t.table
          attention := { s.attention with records := t.attention.records } })

/-- R20: FIND refuses a handle above 511, answers NO_ENTRY for one that is not in the Handle Index, and else gives the
entry and its state; it changes nothing. -/
def Obligations.FindLooksTheHandleUp : Prop :=
  ∀ (handle : Half) (s : State), s.Takes (.find handle) →
    (511 < handle.toNat → exec (.find handle) s = .next (s.replied .badArgument [])) ∧
    (handle.toNat ≤ 511 → s.table.lookup (handle.truncate 9) = none →
      exec (.find handle) s = .next (s.replied .noEntry [])) ∧
    (handle.toNat ≤ 511 → ∀ e : EntryNo, s.table.lookup (handle.truncate 9) = some e →
      exec (.find handle) s = .next (s.replied .done [BitVec.ofNat 8 e.val, (s.entry e).state.code]))

/-- R21, R181: DESCRIBE of an entry that is not VACANT gives its nineteen bytes and changes nothing. -/
def Obligations.DescribeReportsTheFields : Prop :=
  ∀ (b : Byte) (h : b.toNat < 128) (s : State), s.Takes (.describe b) →
    (s.entry ⟨b.toNat, h⟩).state ≠ .vacant →
    exec (.describe b) s = .next (s.replied .done
      [b, (s.entry ⟨b.toNat, h⟩).state.code,
        BitVec.ofNat 8 ((s.entry ⟨b.toNat, h⟩).handle.toNat / 256),
        BitVec.ofNat 8 ((s.entry ⟨b.toNat, h⟩).handle.toNat % 256),
        if (s.entry ⟨b.toNat, h⟩).role = .source then 0x01#8 else 0x02#8,
        BitVec.ofNat 8 (s.entry ⟨b.toNat, h⟩).length,
        BitVec.ofNat 8 ((s.entry ⟨b.toNat, h⟩).permits.storeOk.toNat +
          2 * (s.entry ⟨b.toNat, h⟩).permits.claimOk.toNat + 4 * (s.entry ⟨b.toNat, h⟩).permits.retireOk.toNat),
        BitVec.ofNat 8 ((s.entry ⟨b.toNat, h⟩).limit / 256), BitVec.ofNat 8 ((s.entry ⟨b.toNat, h⟩).limit % 256),
        BitVec.ofNat 8 ((s.entry ⟨b.toNat, h⟩).age / 256), BitVec.ofNat 8 ((s.entry ⟨b.toNat, h⟩).age % 256),
        BitVec.ofNat 8 (s.entry ⟨b.toNat, h⟩).version.toNat,
        BitVec.ofNat 8 ((s.entry ⟨b.toNat, h⟩).current.isSome.toNat +
          2 * (s.entry ⟨b.toNat, h⟩).staged.isSome.toNat + 4 * (s.entry ⟨b.toNat, h⟩).held.isSome.toNat),
        match (s.entry ⟨b.toNat, h⟩).held with
          | some copy => BitVec.ofNat 8 copy.version.toNat
          | none => 0x00#8,
        BitVec.ofNat 8 ((s.entry ⟨b.toNat, h⟩).staleSeen.toNat + 2 * (s.entry ⟨b.toNat, h⟩).claimedSeen.toNat),
        BitVec.ofNat 8 ((s.attention.record ⟨b.toNat, h⟩).mask.toNat / 256),
        BitVec.ofNat 8 ((s.attention.record ⟨b.toNat, h⟩).mask.toNat % 256),
        BitVec.ofNat 8 ((s.attention.record ⟨b.toNat, h⟩).causes.toNat / 256),
        BitVec.ofNat 8 ((s.attention.record ⟨b.toNat, h⟩).causes.toNat % 256)])

/-! ## Staging, committing, discarding and reading -/

/-- R30, R36: a first STAGE takes S cells from the head of the free list; the new staged copy holds the current copy's
bytes, or 00h where there is none, with the host's bytes laid over them; every other byte and field is as it was. -/
def Obligations.FirstStageCopiesAndWrites : Prop :=
  ∀ (b offset : Byte) (data : List Byte) (h : b.toNat < 128) (s : State),
    s.Takes (.stage b offset data) → (s.entry ⟨b.toNat, h⟩).state.working = true →
    (s.entry ⟨b.toNat, h⟩).role = .source → offset.toNat + data.length ≤ (s.entry ⟨b.toNat, h⟩).length →
    (s.entry ⟨b.toNat, h⟩).staged = none → (s.entry ⟨b.toNat, h⟩).segments ≤ s.pool.free.length →
    MemoryOk s → CellsOk s → EntryCopiesOk (s.entry ⟨b.toNat, h⟩) →
    ∃ (t : State) (cells : List CellNo), exec (.stage b offset data) s = .next t ∧
      cells = s.pool.free.take (s.entry ⟨b.toNat, h⟩).segments ∧
      t.host = s.host.completed .done [] ∧
      t.entry ⟨b.toNat, h⟩ = { s.entry ⟨b.toNat, h⟩ with staged := some cells } ∧ TableKeptBut ⟨b.toNat, h⟩ s t ∧
      t.pool.free = s.pool.free.drop (s.entry ⟨b.toNat, h⟩).segments ∧
      BytesHold cells offset.toNat data t ∧
      (∀ o : Nat, o < 16 * (s.entry ⟨b.toNat, h⟩).segments → o < offset.toNat ∨ offset.toNat + data.length ≤ o →
        t.pool.peek cells o =
          match (s.entry ⟨b.toNat, h⟩).current with
          | some source => s.pool.peek source o
          | none => 0x00#8) ∧
      BytesKeptBut cells 0 (16 * (s.entry ⟨b.toNat, h⟩).segments) s t ∧
      t = { s with host := t.host, table := t.table, pool := t.pool }

/-- R35, R37: the checks of a STAGE after those of R19, in their order, each refusal changing nothing but the Host Port;
and a STAGE on an entry that has a staged copy, which meets no check on cells, writes its bytes there in place and
changes nothing else. -/
def Obligations.StageRefusesOrWritesInPlace : Prop :=
  ∀ (b offset : Byte) (data : List Byte) (h : b.toNat < 128) (s : State),
    s.Takes (.stage b offset data) → (s.entry ⟨b.toNat, h⟩).state.working = true →
    ((s.entry ⟨b.toNat, h⟩).role = .mirror → exec (.stage b offset data) s = .next (s.replied .wrongRole [])) ∧
    ((s.entry ⟨b.toNat, h⟩).role = .source → (s.entry ⟨b.toNat, h⟩).length < offset.toNat + data.length →
      exec (.stage b offset data) s = .next (s.replied .badArgument [])) ∧
    ((s.entry ⟨b.toNat, h⟩).role = .source → offset.toNat + data.length ≤ (s.entry ⟨b.toNat, h⟩).length →
      (s.entry ⟨b.toNat, h⟩).staged = none → s.pool.free.length < (s.entry ⟨b.toNat, h⟩).segments →
      exec (.stage b offset data) s = .next (s.replied .noCells [])) ∧
    ∀ cells : List CellNo, (s.entry ⟨b.toNat, h⟩).role = .source →
      offset.toNat + data.length ≤ (s.entry ⟨b.toNat, h⟩).length → (s.entry ⟨b.toNat, h⟩).staged = some cells →
      MemoryOk s → CellsOk s → EntryCopiesOk (s.entry ⟨b.toNat, h⟩) →
      ∃ t : State, exec (.stage b offset data) s = .next t ∧ t.host = s.host.completed .done [] ∧
        BytesHold cells offset.toNat data t ∧ BytesKeptBut cells offset.toNat data.length s t ∧
        t = { s with host := t.host, pool := { s.pool with bytes := t.pool.bytes } }

/-- R38, R39, R40: a COMMIT is refused for a MIRROR, for want of a staged copy, and for a LINE claim; else the staged copy
becomes current at the next version, the age restarts and the entry is LIVE, a pinned old current copy becomes the held
copy with its version and the pin, and an unpinned one goes to the tail of the free list. -/
def Obligations.CommitMakesTheStagedCopyCurrent : Prop :=
  ∀ (b : Byte) (h : b.toNat < 128) (s : State), s.Takes (.commit b) →
    (s.entry ⟨b.toNat, h⟩).state.working = true → ClaimsOk s →
    ((s.entry ⟨b.toNat, h⟩).role = .mirror → exec (.commit b) s = .next (s.replied .wrongRole [])) ∧
    ((s.entry ⟨b.toNat, h⟩).role = .source → (s.entry ⟨b.toNat, h⟩).staged = none →
      exec (.commit b) s = .next (s.replied .wrongState [])) ∧
    ((s.entry ⟨b.toNat, h⟩).role = .source → (s.entry ⟨b.toNat, h⟩).staged ≠ none →
      (∃ k : SlotNo, (s.claims.slot k).lineClaims ⟨b.toNat, h⟩ = true) →
      exec (.commit b) s = .next (s.replied .claimed [])) ∧
    ∀ cells : List CellNo, (s.entry ⟨b.toNat, h⟩).role = .source → (s.entry ⟨b.toNat, h⟩).staged = some cells →
      (∀ k : SlotNo, (s.claims.slot k).lineClaims ⟨b.toNat, h⟩ = false) →
      ∃ t : State, exec (.commit b) s = .next t ∧
        t.host = s.host.completed .done [((s.entry ⟨b.toNat, h⟩).version + 1).zeroExtend 8] ∧
        (∀ d : EntryNo, d ≠ ⟨b.toNat, h⟩ → t.entry d = s.entry d) ∧ t.pool.bytes = s.pool.bytes ∧
        (∀ (old : List CellNo) (owner : PinOwner), (s.entry ⟨b.toNat, h⟩).current = some old →
          s.table.pin = some ⟨⟨b.toNat, h⟩, .current, owner⟩ →
          t.entry ⟨b.toNat, h⟩ =
            { s.entry ⟨b.toNat, h⟩ with
              state := .live, age := 0, version := (s.entry ⟨b.toNat, h⟩).version + 1
              current := some cells, staged := none, held := some ⟨old, (s.entry ⟨b.toNat, h⟩).version⟩ } ∧
          t.table.pin = some ⟨⟨b.toNat, h⟩, .held, owner⟩ ∧ t.pool.free = s.pool.free) ∧
        ((s.entry ⟨b.toNat, h⟩).current = none ∨
            (∀ owner : PinOwner, s.table.pin ≠ some ⟨⟨b.toNat, h⟩, .current, owner⟩) →
          t.entry ⟨b.toNat, h⟩ =
            { s.entry ⟨b.toNat, h⟩ with
              state := .live, age := 0, version := (s.entry ⟨b.toNat, h⟩).version + 1
              current := some cells, staged := none } ∧
          t.table.pin = s.table.pin ∧ t.pool.free = s.pool.free ++ (s.entry ⟨b.toNat, h⟩).current.getD []) ∧
        t = { s with
          host := t.host, pool := t.pool
          table := { t.table with index := s.table.index, inFlight := s.table.inFlight } }

/-- R41: DISCARD is refused for a MIRROR and for want of a staged copy; else it frees the staged copy's cells to the tail
of the free list and changes nothing more, whatever claims stand. -/
def Obligations.DiscardFreesTheStagedCopy : Prop :=
  ∀ (b : Byte) (h : b.toNat < 128) (s : State), s.Takes (.discard b) →
    (s.entry ⟨b.toNat, h⟩).state.working = true →
    ((s.entry ⟨b.toNat, h⟩).role = .mirror → exec (.discard b) s = .next (s.replied .wrongRole [])) ∧
    ((s.entry ⟨b.toNat, h⟩).role = .source → (s.entry ⟨b.toNat, h⟩).staged = none →
      exec (.discard b) s = .next (s.replied .wrongState [])) ∧
    ∀ cells : List CellNo, (s.entry ⟨b.toNat, h⟩).role = .source → (s.entry ⟨b.toNat, h⟩).staged = some cells →
      ∃ t : State, exec (.discard b) s = .next t ∧ t.host = s.host.completed .done [] ∧
        t.entry ⟨b.toNat, h⟩ = { s.entry ⟨b.toNat, h⟩ with staged := none } ∧ TableKeptBut ⟨b.toNat, h⟩ s t ∧
        t = { s with
          host := t.host, table := t.table, pool := { s.pool with free := s.pool.free ++ cells } }

/-- R42: READ is refused for its count and range and for want of a current copy; else it gives the version, the state,
the source flags and the bytes of the current copy, and changes nothing. -/
def Obligations.ReadReturnsTheCurrentCopy : Prop :=
  ∀ (b offset count : Byte) (h : b.toNat < 128) (s : State), s.Takes (.read b offset count) →
    (s.entry ⟨b.toNat, h⟩).state.working = true →
    (count.toNat = 0 ∨ 32 < count.toNat ∨ (s.entry ⟨b.toNat, h⟩).length < offset.toNat + count.toNat →
      exec (.read b offset count) s = .next (s.replied .badArgument [])) ∧
    (1 ≤ count.toNat → count.toNat ≤ 32 → offset.toNat + count.toNat ≤ (s.entry ⟨b.toNat, h⟩).length →
      ((s.entry ⟨b.toNat, h⟩).current = none → exec (.read b offset count) s = .next (s.replied .noData [])) ∧
      ∀ cells : List CellNo, (s.entry ⟨b.toNat, h⟩).current = some cells → EntryCopiesOk (s.entry ⟨b.toNat, h⟩) →
        exec (.read b offset count) s = .next (s.replied .done
          ([(s.entry ⟨b.toNat, h⟩).version.zeroExtend 8,
            if (s.entry ⟨b.toNat, h⟩).state = .stale then 0x03#8 else 0x02#8,
            BitVec.ofNat 8 ((s.entry ⟨b.toNat, h⟩).staleSeen.toNat + 2 * (s.entry ⟨b.toNat, h⟩).claimedSeen.toNat)] ++
            (List.range count.toNat).map fun i => s.pool.peek cells (offset.toNat + i))))

/-! ## Retiring -/

/-- R22, R23, R160: a host RETIRE of an entry that no frame is in flight on tears it down: its pin and its sequence go
with no cause, its current, staged and held cells join the tail of the free list in that order, its slot is FREE, its
handle leaves the index, its attention record is cleared, and the entry is VACANT. -/
def Obligations.HostRetireTearsTheEntryDown : Prop :=
  ∀ (b : Byte) (h : b.toNat < 128) (s : State), s.Takes (.retire b) →
    (s.entry ⟨b.toNat, h⟩).state.working = true → s.table.inFlight ≠ some ⟨b.toNat, h⟩ → IndexOk s →
    ∃ t : State, exec (.retire b) s = .next t ∧ t.host = s.host.completed .done [0x00#8] ∧
      (t.entry ⟨b.toNat, h⟩).state = .vacant ∧ (t.entry ⟨b.toNat, h⟩).cells = [] ∧
      (∀ d : EntryNo, d ≠ ⟨b.toNat, h⟩ → t.entry d = s.entry d) ∧
      t.table.lookup (s.entry ⟨b.toNat, h⟩).handle = none ∧
      (∀ x : Handle, x ≠ (s.entry ⟨b.toNat, h⟩).handle → t.table.lookup x = s.table.lookup x) ∧
      t.table.inFlight = s.table.inFlight ∧
      t.table.pin = (s.table.pin.filter fun p => decide (p.entry ≠ ⟨b.toNat, h⟩)) ∧
      t.pool = { s.pool with free := s.pool.free ++ (s.entry ⟨b.toNat, h⟩).cells } ∧
      (∀ k : SlotNo, t.claims.slot k =
        if (s.claims.slot k).names ⟨b.toNat, h⟩ = true then .free else s.claims.slot k) ∧
      t.claims.lease = s.claims.lease ∧
      t.line = { s.line with seq := s.line.seq.filter fun q => decide (q.entry ≠ ⟨b.toNat, h⟩) } ∧
      t.attention.record ⟨b.toNat, h⟩ =
        { s.attention.record ⟨b.toNat, h⟩ with posting := .closed, causes := 0#13 } ∧
      (∀ d : EntryNo, d ≠ ⟨b.toNat, h⟩ → t.attention.record d = s.attention.record d) ∧
      t.attention.list = (s.attention.list.filter fun d => decide (d ≠ ⟨b.toNat, h⟩)) ∧
      t.attention.conditions = s.attention.conditions ∧
      t.attention.attn = (!t.attention.list.isEmpty || s.attention.conditions != 0#8) ∧ QueueKept s t

/-- R24, R27: a host RETIRE of an entry that a frame is in flight on makes it RETIRING, with its cause set cleared and
everything else kept; a second one changes nothing; and one of an ENDED entry makes it VACANT. -/
def Obligations.HostRetireInFlightOrEnded : Prop :=
  ∀ (b : Byte) (h : b.toNat < 128) (s : State), s.Takes (.retire b) →
    ((s.entry ⟨b.toNat, h⟩).state.working = true → s.table.inFlight = some ⟨b.toNat, h⟩ →
      ∃ t : State, exec (.retire b) s = .next t ∧ t.host = s.host.completed .done [0x04#8] ∧
        t.entry ⟨b.toNat, h⟩ = { s.entry ⟨b.toNat, h⟩ with state := .retiring } ∧ TableKeptBut ⟨b.toNat, h⟩ s t ∧
        t.attention = s.attention.clear ⟨b.toNat, h⟩ ∧
        t = { s with host := t.host, table := t.table, attention := t.attention }) ∧
    ((s.entry ⟨b.toNat, h⟩).state = .retiring → exec (.retire b) s = .next (s.replied .done [0x04#8])) ∧
    ((s.entry ⟨b.toNat, h⟩).state = .ended →
      ∃ t : State, exec (.retire b) s = .next t ∧ t.host = s.host.completed .done [0x00#8] ∧
        (t.entry ⟨b.toNat, h⟩).state = .vacant ∧ (t.entry ⟨b.toNat, h⟩).cells = [] ∧ TableKeptBut ⟨b.toNat, h⟩ s t ∧
        t.attention = s.attention.clear ⟨b.toNat, h⟩ ∧
        t = { s with host := t.host, table := t.table, attention := t.attention })

/-! ## Claims -/

/-- R77: HOLD by the first row that holds. -/
def Obligations.HoldFollowsItsTable : Prop :=
  ∀ (b : Byte) (h : b.toNat < 128) (s : State), s.Takes (.hold b) →
    (s.entry ⟨b.toNat, h⟩).state.working = true → ClaimsOk s →
    ((s.entry ⟨b.toNat, h⟩).role = .mirror → exec (.hold b) s = .next (s.replied .wrongRole [])) ∧
    ((s.entry ⟨b.toNat, h⟩).role = .source →
      (∀ k : SlotNo, s.claims.slot k = .heldHost ⟨b.toNat, h⟩ →
        exec (.hold b) s = .next (s.replied .done [BitVec.ofNat 8 k.val])) ∧
      (∀ (k : SlotNo) (tag : Tag) (lease : Nat) (renewal : Bool),
        s.claims.slot k = .reserved ⟨b.toNat, h⟩ tag lease renewal →
        exec (.hold b) s = .next (s.replied .claimed [tag.zeroExtend 8, 0x01#8])) ∧
      (∀ (k : SlotNo) (tag : Tag) (lease : Nat), s.claims.slot k = .heldLine ⟨b.toNat, h⟩ tag lease →
        exec (.hold b) s = .next (s.replied .claimed [tag.zeroExtend 8, 0x02#8])) ∧
      ((∀ k : SlotNo, (s.claims.slot k).names ⟨b.toNat, h⟩ = false) →
        (∀ k : SlotNo, s.claims.slot k = .free → (∀ j : SlotNo, j < k → s.claims.slot j ≠ .free) →
          exec (.hold b) s = .next { s.replied .done [BitVec.ofNat 8 k.val] with
            claims := { s.claims with slots := s.claims.slots.set k.val (.heldHost ⟨b.toNat, h⟩) } }) ∧
        ((∀ k : SlotNo, s.claims.slot k ≠ .free) → exec (.hold b) s = .next (s.replied .claimsFull []))))

/-- R78, R79: LET_GO by the first row that holds, and what force does to a LINE slot in the state it is found in. -/
def Obligations.LetGoFollowsItsTable : Prop :=
  ∀ (b force : Byte) (h : b.toNat < 128) (s : State), s.Takes (.letGo b force) →
    (s.entry ⟨b.toNat, h⟩).state.working = true → ClaimsOk s →
    ((s.entry ⟨b.toNat, h⟩).role = .mirror → exec (.letGo b force) s = .next (s.replied .wrongRole [])) ∧
    ((s.entry ⟨b.toNat, h⟩).role = .source →
      ((∀ k : SlotNo, (s.claims.slot k).names ⟨b.toNat, h⟩ = false) →
        exec (.letGo b force) s = .next (s.replied .wrongState [])) ∧
      (∀ k : SlotNo, s.claims.slot k = .heldHost ⟨b.toNat, h⟩ →
        exec (.letGo b force) s = .next { s.replied .done [] with
          claims := { s.claims with slots := s.claims.slots.set k.val .free } }) ∧
      (force = 0x00#8 → (∃ k : SlotNo, (s.claims.slot k).lineClaims ⟨b.toNat, h⟩ = true) →
        exec (.letGo b force) s = .next (s.replied .wrongState [])) ∧
      (force = 0x01#8 →
        (∀ (k : SlotNo) (tag : Tag) (lease : Nat), s.claims.slot k = .heldLine ⟨b.toNat, h⟩ tag lease →
          exec (.letGo b force) s = .next { s.replied .done [] with
            claims := { s.claims with slots := s.claims.slots.set k.val .free }
            attention := s.attention.post ⟨b.toNat, h⟩ (1#13 <<< 11) }) ∧
        (∀ (k : SlotNo) (tag : Tag) (lease : Nat), s.claims.slot k = .reserved ⟨b.toNat, h⟩ tag lease true →
          exec (.letGo b force) s = .next { s.replied .done [] with
            claims := { s.claims with slots := s.claims.slots.set k.val .free }
            attention := s.attention.post ⟨b.toNat, h⟩ (1#13 <<< 11) }) ∧
        (∀ (k : SlotNo) (tag : Tag) (lease : Nat), s.claims.slot k = .reserved ⟨b.toNat, h⟩ tag lease false →
          exec (.letGo b force) s = .next { s.replied .done [] with
            claims := { s.claims with slots := s.claims.slots.set k.val .free } })))

/-! ## Configuration, modes and the part's own rouse -/

/-- R145: CONFIGURE's two checks in their order, and its four values written at once. -/
def Obligations.ConfigureWritesAllFourValues : Prop :=
  ∀ (rate : Byte) (holdTb : Half) (idle : Byte) (lease : Half) (s : State),
    s.Takes (.configure rate holdTb idle lease) →
    (3 < rate.toNat ∨ holdTb.toNat < 40 ∨ 4000 < holdTb.toNat ∨ lease.toNat < 10 ∨ 60000 < lease.toNat →
      exec (.configure rate holdTb idle lease) s = .next (s.replied .badArgument [])) ∧
    (rate.toNat ≤ 3 → 40 ≤ holdTb.toNat → holdTb.toNat ≤ 4000 → 10 ≤ lease.toNat → lease.toNat ≤ 60000 →
      (s.line.mode ≠ .offline → exec (.configure rate holdTb idle lease) s = .next (s.replied .wrongMode [])) ∧
      (s.line.mode = .offline → ∃ r : Rate,
        (rate = 0x00#8 ∧ r = .r4800 ∨ rate = 0x01#8 ∧ r = .r9600 ∨ rate = 0x02#8 ∧ r = .r19200 ∨
          rate = 0x03#8 ∧ r = .r38400) ∧
        exec (.configure rate holdTb idle lease) s = .next { s.replied .done [] with
          line := { s.line with rate := r, hold := holdTb.toNat, idleLimit := idle.toNat }
          claims := { s.claims with lease := lease.toNat } }))

/-- R146, R147, R149: SET_MODE in OFFLINE, in DORMANT and in LISTEN with no frame in flight; a mode that names none, or
ROUSING, is refused, and so is DORMANT with a frame in flight. Leaving LISTEN closes an open sequence with SEG_BROKEN, and
its pin or its staged copy goes. In DORMANT the present mode changes nothing even while a rouse is being timed, where R146
and R151 disagree: the model's choice (log 11). -/
def Obligations.SetModeFollowsItsTable : Prop :=
  ∀ (m : Byte) (s : State), s.Takes (.setMode m) → LineOk s →
    (3 ≤ m.toNat → exec (.setMode m) s = .next (s.replied .badArgument [])) ∧
    (m = s.line.mode.code → s.line.mode ≠ .rousing → exec (.setMode m) s = .next (s.replied .done [m])) ∧
    (m = 0x01#8 → s.line.mode = .offline ∨ s.line.mode = .dormant →
      ∃ t : State, exec (.setMode m) s = .next t ∧ t.host = s.host.completed .done [0x01#8] ∧
        t.line.mode = .listen ∧ t.line.phase = .waiting ∧ t.line.frame = {} ∧ t.line.seq = none ∧
        t.line.idle = some 0 ∧ t.line.idlePending = false ∧ t.line.runBefore = true ∧ t.line.txd = .released ∧
        t.line.rate = s.line.rate ∧ t.line.hold = s.line.hold ∧ t.line.idleLimit = s.line.idleLimit ∧
        t = { s with host := t.host, line := t.line }) ∧
    (s.line.mode = .listen → s.line.phase.inFlight = true → m = 0x02#8 →
      exec (.setMode m) s = .next (s.replied .lineBusy [])) ∧
    (∀ q : LineMode, q = .offline ∧ m = 0x00#8 ∨ q = .dormant ∧ m = 0x02#8 → s.line.mode ≠ q →
      s.line.mode ≠ .rousing → s.line.phase.inFlight = false →
      ∃ t : State, exec (.setMode m) s = .next t ∧ t.host = s.host.completed .done [m] ∧
        t.line.mode = q ∧ t.line.phase = .waiting ∧ t.line.frame = {} ∧ t.line.seq = none ∧
        t.line.idle = none ∧ t.line.idlePending = false ∧ t.line.rouseSeen = false ∧ t.line.txd = .released ∧
        t.line.rate = s.line.rate ∧ t.line.hold = s.line.hold ∧ t.line.idleLimit = s.line.idleLimit ∧
        t.claims = s.claims ∧ t.pool.bytes = s.pool.bytes ∧ QueueKept s t ∧
        (s.line.seq = none → t = { s with host := t.host, line := t.line }) ∧
        (∀ c : SequenceContext, s.line.seq = some c → t.attention = s.attention.post c.entry (1#13 <<< 7)) ∧
        ∃ u : State, SequenceClosed s u ∧ t = { u with host := t.host, line := t.line, attention := t.attention })

/-- R148, R85, R132: SET_MODE OFFLINE with a frame in flight. In SPACE and RECEIVING the frame is abandoned at once; in
ANSWERING the command waits, and OFFLINE_CHARACTER_END abandons the frame, unless a readback mismatch has come: then the
frame ends as collided, with COLLIDED and no ABANDONED. Either way the part is OFFLINE with TXD high and no sequence open.
The abandoned report does what the table of R148 says to the pin, the sequence, the staged copy and a reservation. -/
def Obligations.SetModeOfflineAbandonsTheFrame : Prop :=
  (∀ s : State, s.Takes (.setMode 0x00#8) → s.line.mode = .listen → s.line.phase = .answering →
    exec (.setMode 0x00#8) s = .next { s with host := s.host.outstanding .offline }) ∧
  ∀ (c : Instr) (collided : Bool) (a : Action) (e : EntryNo) (s : State),
    (c = .setMode 0x00#8 ∧ s.Takes c ∧ collided = false ∧
        (s.line.phase = .space ∧ s.line.frame.asking = false ∨ s.line.phase = .receiving)) ∨
      (c = .offlineCharacterEnd ∧ s.host.work = some .offline ∧ s.line.phase = .answering ∧
        s.line.collided = collided) →
    s.line.mode = .listen → s.line.frame.entry = some e → s.line.frame.action = some a →
    (s.entry e).state.working = true → ClaimsOk s → (a ≠ .fetch → s.line.seq = none) →
    ∃ (t : State) (after : AttentionUnit), exec c s = .next t ∧ t.host = s.host.completed .done [0x00#8] ∧
      t.line.mode = .offline ∧ t.line.phase = .waiting ∧ t.line.frame = {} ∧ t.line.landing = [] ∧
      t.line.seq = none ∧ t.line.idle = none ∧ t.line.txd = .released ∧ QueueKept s t ∧ FrameFails a e s t after ∧
      t.attention = (if collided = true then after.post e (1#13 <<< 5) else
        { after with conditions := s.attention.conditions ||| 0x80#8, attn := true }) ∧
      (t.entry e).version = (s.entry e).version ∧ (t.entry e).age = (s.entry e).age ∧
      (t.entry e).state = (s.entry e).state ∧ (t.entry e).current = (s.entry e).current

/-- R152, R153, R85: ROUSE is refused outside DORMANT; in DORMANT the part is ROUSING with TXD low and the command
outstanding. At the end of the pulse TXD is high: a recessive line enters LISTEN in WAITING, a dominant one waits for its
release or for 20 ms, which sets LINE_STUCK and enters LISTEN in RECOVERING; the entry completes the ROUSE. -/
def Obligations.RouseRunsToListen : Prop :=
  (∀ s : State, s.Takes .rouse →
    (s.line.mode ≠ .dormant → exec .rouse s = .next (s.replied .wrongMode [])) ∧
    (s.line.mode = .dormant →
      ∃ t : State, exec .rouse s = .next t ∧ t.host = s.host.outstanding .rouse ∧ t.line.mode = .rousing ∧
        t.line.txd = .pulse ∧ t.line.rouseSeen = false ∧ t.line.phase = .waiting ∧ t.line.idle = none ∧
        t = { s with host := t.host, line := t.line })) ∧
  (∀ s : State, s.line.mode = .rousing → s.line.txd = .pulse →
    exec (.rousePulseEnd true) s = .next { s with line := { s.line with txd := .released } }) ∧
  (∀ (c : Instr) (p : Phase) (s : State), s.line.mode = .rousing →
    (c = .rousePulseEnd false ∧ p = .waiting ∧ s.line.txd = .pulse) ∨
      (c = .rouseLineRelease ∧ p = .waiting ∧ s.line.txd = .released) ∨
      (c = .rouseStuckTimeout ∧ p = .recovering ∧ s.line.txd = .released) →
    ∃ t : State, exec c s = .next t ∧ t.host = s.host.completed .done [if p = .waiting then 0x00#8 else 0x07#8] ∧
      t.line.mode = .listen ∧ t.line.phase = p ∧ t.line.frame = {} ∧ t.line.seq = none ∧ t.line.txd = .released ∧
      t.line.idle = some 0 ∧ t.line.runBefore = true ∧ t.line.rate = s.line.rate ∧ t.line.hold = s.line.hold ∧
      t.line.idleLimit = s.line.idleLimit ∧
      t.attention = (if p = .waiting then s.attention else
        { s.attention with conditions := s.attention.conditions ||| 0x20#8, attn := true }) ∧
      t = { s with host := t.host, line := t.line, attention := t.attention })

/-- R151, R149: in DORMANT a run shorter than 100 µs is passed over; one that reaches 100 µs is a rouse, and the mode
stays DORMANT until its end, which enters LISTEN in WAITING; one that reaches 20 ms sets LINE_STUCK and enters LISTEN in
RECOVERING. -/
def Obligations.DormantIsLeftByARouseOrAStuckLine : Prop :=
  ∀ s : State, s.line.mode = .dormant →
    exec .dormantShortRun s = .next s ∧
    exec .rouseDetected s = .next { s with line := { s.line with rouseSeen := true } } ∧
    (s.line.rouseSeen = true →
      ∃ t : State, exec .rouseRunEnd s = .next t ∧ t.line.mode = .listen ∧ t.line.phase = .waiting ∧
        t.line.frame = {} ∧ t.line.seq = none ∧ t.line.idle = some 0 ∧ t.line.rouseSeen = false ∧
        t.line.runBefore = true ∧
        t.line.rate = s.line.rate ∧ t.line.hold = s.line.hold ∧ t.line.idleLimit = s.line.idleLimit ∧
        t = { s with line := t.line }) ∧
    ∃ t : State, exec .dormantLineStuck s = .next t ∧ t.line.mode = .listen ∧ t.line.phase = .recovering ∧
      t.line.frame = {} ∧ t.line.seq = none ∧ t.line.idle = some 0 ∧ t.line.rouseSeen = false ∧
      t.line.runBefore = true ∧ t.line.rate = s.line.rate ∧ t.line.hold = s.line.hold ∧
      t.line.idleLimit = s.line.idleLimit ∧
      t.attention = { s.attention with conditions := s.attention.conditions ||| 0x20#8, attn := true } ∧
      t = { s with line := t.line, attention := t.attention }

/-! ## The Host Port, the resets and RESTART -/

/-- R165 to R171, R173: NOP changes nothing; a fall of CS fixes the image by READY, the reply slot in IDLE and BUSY in
WORKING and INITIALISING; the rise of CS in SHIFTING goes by the cases of R167 and the Host Port's own checks; and the
rise that ends a BUSY transaction discards it. Whatever the bytes, no block but the Host Port changes, and CS is high with
SDO high impedance; SDO has carried a byte for each byte clocked in: the image fixed at the fall, and 00h after it
(recorded by the model, log 32). -/
def Obligations.TransactionsAreJudged : Prop :=
  (∀ s : State, exec .nop s = .next s) ∧
  (∀ s : State, s.host.csLow = false → s.host.stage ≠ .held →
    (s.host.state = .idle → exec .csFall s = .next { s with host :=
      { s.host with
        csLow := true, state := .shifting, buffer := []
        sdo := some (s.host.slot.status.code :: BitVec.ofNat 8 s.host.slot.data.length :: s.host.slot.data) } }) ∧
    (s.host.state = .working ∨ s.host.state = .initialising → exec .csFall s = .next { s with host :=
      { s.host with csLow := true, state := .workingBusy, buffer := [], sdo := some [0x02#8, 0x00#8] } })) ∧
  ∀ (bytes : List Byte) (s : State), s.host.csLow = true → HostOk s →
    ∃ t : State, exec (.csRise bytes) s = .next t ∧ OnlyHostChanged s t ∧ t.host.csLow = false ∧ t.host.sdo = none ∧
      (∀ image : List Byte, s.host.sdo = some image → t.host.shifted.length = bytes.length ∧
        ∀ i : Nat, i < bytes.length →
          (∀ h : i < image.length, t.host.shifted.getD i 0xFF#8 = image[i]) ∧
          (image.length ≤ i → t.host.shifted.getD i 0xFF#8 = 0x00#8)) ∧
      (s.host.sdo = none → t.host.shifted = []) ∧
      (s.host.state = .shifting → bytes = [] ∨ bytes.head? = some 0x00#8 →
        t.host.state = .idle ∧ t.host.ready = true ∧ t.host.slot = s.host.slot ∧ t.host.work = none) ∧
      (∀ code : Byte, s.host.state = .shifting → code ≠ 0x00#8 → bytes = [code] →
        t.host.state = .idle ∧ t.host.ready = true ∧ t.host.slot = ⟨.badFrame, []⟩ ∧ t.host.buffer = [] ∧
          t.host.work = none) ∧
      (∀ (code count : Byte) (rest : List Byte), s.host.state = .shifting → code ≠ 0x00#8 →
        bytes = code :: count :: rest →
        (40 < count.toNat ∨ rest.length < count.toNat →
          t.host.state = .idle ∧ t.host.ready = true ∧ t.host.slot = ⟨.badFrame, []⟩ ∧ t.host.buffer = [] ∧
            t.host.work = none) ∧
        (count.toNat ≤ 40 → count.toNat ≤ rest.length →
          t.host.buffer = bytes.take 42 ∧
          (decodeCommand code (rest.take count.toNat) = .badCommand →
            t.host.state = .idle ∧ t.host.ready = true ∧ t.host.slot = ⟨.badCommand, []⟩ ∧ t.host.work = none) ∧
          (decodeCommand code (rest.take count.toNat) = .badArgument ∨
            (∃ e force : Byte, decodeCommand code (rest.take count.toNat) = .command (.letGo e force) ∧
              1 < force.toNat) →
            t.host.state = .idle ∧ t.host.ready = true ∧ t.host.slot = ⟨.badArgument, []⟩ ∧ t.host.work = none) ∧
          (∀ i : Instr, decodeCommand code (rest.take count.toNat) = .command i →
            (∀ e force : Byte, i = .letGo e force → force.toNat ≤ 1) →
            t.host.state = .working ∧ t.host.ready = false ∧ t.host.slot = s.host.slot ∧
              t.host.work = some (.handed i)))) ∧
      (s.host.state = .workingBusy →
        t.host.slot = s.host.slot ∧ t.host.work = s.host.work ∧ t.host.ready = s.host.ready ∧ t.host.buffer = [] ∧
          t.host.state = (if s.host.ready = true then .idle
            else if s.host.stage = .complete then .working else .initialising))

/-- R172, R144, R164, R169: POWER_ON and PIN_RESET leave the part INITIALISING with READY and ATTN deasserted, TXD high
and STARTED in the slot; RESET_RELEASE reads a CS already low as a fall; INITIALISATION_COMPLETE leaves every block in its
reset state with the default configuration, and READY asserted. The bytes a power-on leaves in the cells, and that the
other resets keep them, are the model's choice (log 9), and so are the values of the Line Unit's bit flags (log 8). -/
def Obligations.ResetsLeaveTheResetState : Prop :=
  (∀ (c : Instr) (s : State), c = .powerOn ∨ c = .pinReset →
    ∃ t : State, exec c s = .next t ∧ t.host.state = .initialising ∧ t.host.ready = false ∧ t.host.sdo = none ∧
      t.host.work = none ∧ t.host.slot = ⟨.started, []⟩ ∧ t.host.stage = .held ∧ t.host.csLow = s.host.csLow ∧
      t.line.txd = .released ∧ t.attention.attn = false ∧ QueueKept s t ∧
      t.pool.bytes = (if c = .powerOn then [] else s.pool.bytes)) ∧
  (∀ s : State, s.host.stage = .held →
    (s.host.csLow = false → exec .resetRelease s = .next { s with host := { s.host with stage := .initialising } }) ∧
    (s.host.csLow = true → s.host.state = .initialising → exec .resetRelease s = .next { s with host :=
      { s.host with
        stage := .initialising, state := .workingBusy, buffer := [], sdo := some [0x02#8, 0x00#8] } })) ∧
  ∀ s : State, s.host.stage = .initialising →
    ∃ t : State, exec .initialisationComplete s = .next t ∧
      t.host = { s.host with
        stage := .complete, ready := true, work := none
        state := if s.host.state = .workingBusy then .workingBusy else .idle } ∧
      (∀ e : EntryNo, (t.entry e).isReset ∧ (t.attention.record e).isReset) ∧
      (∀ h : Handle, t.table.lookup h = none) ∧ t.table.inFlight = none ∧ t.table.pin = none ∧
      t.pool = { s.pool with free := List.finRange 384 } ∧
      (∀ k : SlotNo, t.claims.slot k = .free) ∧ t.claims.lease = 1000 ∧ t.line = LineUnit.reset ∧
      t.line.rate = .r9600 ∧ t.line.hold = 400 ∧ t.line.idleLimit = 0 ∧ t.line.mode = .offline ∧
      t.attention.list = [] ∧ t.attention.conditions = 0#8 ∧ t.attention.attn = false ∧ QueueKept s t

/-- R176, R177, R178: RESTART outside ANSWERING, and RESTART_CHARACTER_END after one taken in ANSWERING, set every block
to its reset state in one event, keep the four configuration values, post nothing and reply DONE; in ANSWERING the command
waits with nothing else changed. That the bytes of the cells are kept, and the Line Unit's bit flags, are the model's
choice (logs 8 and 9); so is that a port with CS low completes in WORKING_BUSY and is IDLE at the rise of CS, as R168 has
it, where R176 has it IDLE at once (log 30). -/
def Obligations.RestartResetsEveryBlock : Prop :=
  (∀ s : State, s.Takes .restart → s.line.phase = .answering →
    exec .restart s = .next { s with host := s.host.outstanding .restart }) ∧
  ∀ (c : Instr) (s : State),
    (c = .restart ∧ s.Takes .restart ∧ s.line.phase ≠ .answering) ∨
      (c = .restartCharacterEnd ∧ s.host.work = some .restart) →
    ∃ t : State, exec c s = .next t ∧ t.host = s.host.completed .done [] ∧
      (∀ e : EntryNo, (t.entry e).isReset ∧ (t.attention.record e).isReset) ∧
      (∀ h : Handle, t.table.lookup h = none) ∧ t.table.inFlight = none ∧ t.table.pin = none ∧
      t.pool.free = List.finRange 384 ∧ BytesKept s t ∧
      (∀ k : SlotNo, t.claims.slot k = .free) ∧ t.claims.lease = s.claims.lease ∧
      t.line = { LineUnit.reset with rate := s.line.rate, hold := s.line.hold, idleLimit := s.line.idleLimit } ∧
      t.attention.list = [] ∧ t.attention.conditions = 0#8 ∧ t.attention.attn = false ∧ QueueKept s t

/-! ## The tick, the leases, the idle limit and the segment hold -/

/-- R55, R56, R58, R61, R14: a tick advances every age that runs, up to 65535, and makes STALE each LIVE entry whose age is
then at or above its nonzero limit, an amended one included, whose STALE is kept where its mask and posting state keep it.
Nothing else of an entry changes, nor the pin or the pool, but where the tick brings an idle expiry in WAITING, SKIPPING or
RECOVERING: then the open sequence gives up its pin or its staged copy, and every other entry keeps its copies.
FRESHNESS_EXPIRY makes that comparison for one entry by itself, and not before the tick that follows an AMEND of the limit
(log 6). -/
def Obligations.TickAgesAndExpires : Prop :=
  (∀ (e : EntryNo) (s : State), (s.entry e).state = .live → (s.entry e).limit ≠ 0 →
    (s.entry e).limit ≤ (s.entry e).age →
    ((s.entry e).amended = false →
      ∃ t : State, exec (.freshnessExpiry e) s = .next t ∧ t.entry e = { s.entry e with state := .stale } ∧
        TableKeptBut e s t ∧ t.attention = s.attention.post e (1#13 <<< 1) ∧
        t = { s with table := t.table, attention := t.attention }) ∧
    ((s.entry e).amended = true → exec (.freshnessExpiry e) s = .next s)) ∧
  ∀ s : State, s.host.stage = .complete →
    ∃ t : State, exec .tick s = .next t ∧ t.table.index = s.table.index ∧ t.table.inFlight = s.table.inFlight ∧
      t.pool.bytes = s.pool.bytes ∧ t.host = s.host ∧
      (¬ s.idleExpiryDue → t.table.pin = s.table.pin ∧ t.pool = s.pool ∧
        ∀ e : EntryNo, (t.entry e).staged = (s.entry e).staged ∧ (t.entry e).held = (s.entry e).held) ∧
      (s.idleExpiryDue →
        (∃ u : State, SequenceClosed s u ∧ t.table.pin = u.table.pin ∧ t.pool = u.pool ∧
          ∀ e : EntryNo, (t.entry e).staged = (u.entry e).staged ∧ (t.entry e).held = (u.entry e).held) ∧
        ∀ (q : SequenceContext) (e : EntryNo), s.line.seq = some q →
          (∀ p : Pin, s.table.pin = some p → p.entry = q.entry) → e ≠ q.entry →
          (t.entry e).staged = (s.entry e).staged ∧ (t.entry e).held = (s.entry e).held) ∧
      ∀ (e : EntryNo) (x : Entry),
        x = { s.entry e with staged := (t.entry e).staged, held := (t.entry e).held, amended := false } →
        ((s.entry e).state = .vacant ∨ (s.entry e).state = .draft ∨ (s.entry e).state = .ended → t.entry e = x) ∧
        ((s.entry e).state = .stale ∨ (s.entry e).state = .retiring ∧ (s.entry e).current.isSome = true →
          t.entry e = { x with age := min ((s.entry e).age + 1) 65535 }) ∧
        ((s.entry e).state = .retiring → (s.entry e).current = none → t.entry e = x) ∧
        ((s.entry e).state = .live →
          ((s.entry e).limit ≠ 0 → (s.entry e).limit ≤ min ((s.entry e).age + 1) 65535 →
            t.entry e = { x with age := min ((s.entry e).age + 1) 65535, state := .stale } ∧
            ((s.attention.record e).posting ≠ .closed → (s.attention.record e).mask.getLsbD 1 = true →
              (t.attention.record e).causes.getLsbD 1 = true ∧
                ((s.attention.record e).causes = 0#13 → e ∈ t.attention.list))) ∧
          ((s.entry e).limit = 0 ∨ min ((s.entry e).age + 1) 65535 < (s.entry e).limit →
            t.entry e = { x with age := min ((s.entry e).age + 1) 65535 }))

/-- R73, R72: a tick takes 1 from the lease of every HELD LINE slot, frees those that reach 0, posts CLAIM_ENDED for them,
and leaves every other slot as it is. LEASE_EXPIRY is the expiry of one slot whose lease has reached 0 by itself
(log 6). -/
def Obligations.TickRunsLeasesDown : Prop :=
  (∀ (k : SlotNo) (e : EntryNo) (tag : Tag) (s : State), s.claims.slot k = .heldLine e tag 0 →
    exec (.leaseExpiry k) s = .next { s with
      claims := { s.claims with slots := s.claims.slots.set k.val .free }
      attention := s.attention.post e (1#13 <<< 11) }) ∧
  ∀ s : State, s.host.stage = .complete →
    ∃ t : State, exec .tick s = .next t ∧ t.claims.lease = s.claims.lease ∧
      ∀ k : SlotNo,
        ((∀ (e : EntryNo) (tag : Tag) (lease : Nat), s.claims.slot k ≠ .heldLine e tag lease) →
          t.claims.slot k = s.claims.slot k) ∧
        ∀ (e : EntryNo) (tag : Tag) (lease : Nat), s.claims.slot k = .heldLine e tag lease →
          (1 < lease → t.claims.slot k = .heldLine e tag (lease - 1)) ∧
          (lease = 1 → t.claims.slot k = .free ∧
            ((s.attention.record e).posting ≠ .closed → (s.attention.record e).mask.getLsbD 11 = true →
              (t.attention.record e).causes.getLsbD 11 = true))

/-- R150, R147: in LISTEN a tick counts the idle timer; at 1000 ticks for each second of a nonzero limit the part goes
DORMANT at once in WAITING, SKIPPING and RECOVERING, closing an open sequence with SEG_BROKEN and giving up its pin or its
staged copy, and in the other phases holds the expiry pending. IDLE_EXPIRY does the same by itself at a count that stands at
its limit (log 6), and DEFERRED_IDLE_EXPIRY settles a pending one in the first three phases. The model also settles it in
the very step that brings such a phase, here the end of a short run in IN_BREAK (log 15). -/
def Obligations.IdleLimitLeadsToDormant : Prop :=
  (∀ (n : Nat) (s : State), s.host.stage = .complete → s.line.mode = .listen → s.line.idle = some n →
    ∃ t : State, exec .tick s = .next t ∧
      (s.line.idleLimit = 0 ∨ n + 1 ≠ 1000 * s.line.idleLimit → t.line = { s.line with idle := some (n + 1) }) ∧
      (s.line.idleLimit ≠ 0 → n + 1 = 1000 * s.line.idleLimit →
        (s.line.phase = .inBreak ∨ s.line.phase = .header ∨ s.line.phase.inFlight = true →
          t.line = { s.line with idle := some (n + 1), idlePending := true }) ∧
        (s.line.phase = .waiting ∨ s.line.phase = .skipping ∨ s.line.phase = .recovering →
          t.line.mode = .dormant ∧ t.line.phase = .waiting ∧ t.line.frame = {} ∧ t.line.seq = none ∧
          t.line.idle = none ∧ t.line.idlePending = false ∧
          (∃ u : State, SequenceClosed s u ∧ t.table.pin = u.table.pin ∧ t.pool = u.pool ∧
            ∀ e : EntryNo, (t.entry e).staged = (u.entry e).staged ∧ (t.entry e).held = (u.entry e).held) ∧
          ∀ q : SequenceContext, s.line.seq = some q → (s.attention.record q.entry).posting ≠ .closed →
            (s.attention.record q.entry).mask.getLsbD 7 = true →
            (t.attention.record q.entry).causes.getLsbD 7 = true ∧
              ((s.attention.record q.entry).causes = 0#13 → q.entry ∈ t.attention.list)))) ∧
  (∀ (c : Instr) (s : State), s.line.mode = .listen →
    s.line.phase = .waiting ∨ s.line.phase = .skipping ∨ s.line.phase = .recovering →
    (c = .idleExpiry ∧ s.line.idleLimit ≠ 0 ∧ s.line.idle = some (1000 * s.line.idleLimit) ∧
        s.line.idlePending = false) ∨ (c = .deferredIdleExpiry ∧ s.line.idlePending = true) →
    ∃ t : State, exec c s = .next t ∧ t.line.mode = .dormant ∧ t.line.phase = .waiting ∧ t.line.frame = {} ∧
      t.line.seq = none ∧ t.line.idle = none ∧ t.line.idlePending = false ∧ t.claims = s.claims ∧ t.host = s.host ∧
      t.pool.bytes = s.pool.bytes ∧ t.attention = s.brokenPosting s.attention ∧
      (s.line.seq = none → t = { s with line := t.line }) ∧
      ∃ u : State, SequenceClosed s u ∧ t = { u with line := t.line, attention := t.attention }) ∧
  (∀ s : State, s.line.mode = .listen → s.line.phase = .inBreak → s.line.breakSeen = false →
    s.line.idlePending = true → ∃ t : State, exec .runShortOfBreak s = .next t ∧ t.line.mode = .dormant) ∧
  ∀ s : State, s.line.mode = .listen →
    s.line.phase = .inBreak ∨ s.line.phase = .header ∨ s.line.phase.inFlight = true →
    s.line.idleLimit ≠ 0 → s.line.idle = some (1000 * s.line.idleLimit) → s.line.idlePending = false →
    exec .idleExpiry s = .next { s with line := { s.line with idlePending := true } }

/-- R113, R114, R46, R53: when the hold of an open sequence runs out, the sequence closes with SEG_BROKEN: a SERVE
sequence releases the pin, an ASSEMBLE sequence frees the staged copy. While a continuation frame is under way the hold
does not run, and nothing happens. -/
def Obligations.SegmentHoldExpiryClosesTheSequence : Prop :=
  ∀ (s : State) (q : SequenceContext), s.line.seq = some q →
    (q.hold = none → exec .segmentHoldExpiry s = .next s) ∧
    (∀ d : Nat, q.hold = some d →
      (q.kind = .serve → exec .segmentHoldExpiry s = .next { s.releasePin with
        line := { s.line with seq := none }, attention := s.attention.post q.entry (1#13 <<< 7) }) ∧
      (∀ cells : List CellNo, q.kind = .assemble → (s.entry q.entry).staged = some cells →
        ∃ t : State, exec .segmentHoldExpiry s = .next t ∧
          t.entry q.entry = { s.entry q.entry with staged := none } ∧ TableKeptBut q.entry s t ∧
          t.pool = { s.pool with free := s.pool.free ++ cells } ∧ t.line = { s.line with seq := none } ∧
          t.attention = s.attention.post q.entry (1#13 <<< 7) ∧
          t = { s with table := t.table, pool := t.pool, line := t.line, attention := t.attention }))

/-! ## Runs, breaks and headers -/

/-- R87, R89, R91, R92, R140, R141: how the phase moves at a change to dominant, at the ends of runs and breaks, at a stuck
line and at the end of recovery, and what a start bit's sample does. The end of a run that was under way at the entry to
LISTEN leaves the phase as it is, and the next run is timed from its own start. The count that the end of a short run in
RECOVERING restarts is not measured by the model (log 28). In RECEIVING a change to dominant between characters stands for
a start edge, which its sample confirms or drops (log 31). -/
def Obligations.RunsMoveThePhase : Prop :=
  (∀ s : State, s.line.mode = .listen →
    (s.line.phase = .waiting → exec .dominantRunStart s = .next { s with line := { s.line with
      phase := .inBreak, breakSeen := false, runBefore := false } }) ∧
    (s.line.phase = .recovering →
      exec .dominantRunStart s = .next { s with line := { s.line with runBefore := false } }) ∧
    (s.line.phase = .receiving → s.line.assembling = false →
      exec .dominantRunStart s = .next { s with line := { s.line with edge := true } }) ∧
    (s.line.phase ≠ .waiting → s.line.phase ≠ .recovering → s.line.phase ≠ .receiving ∨ s.line.assembling = true →
      exec .dominantRunStart s = .next s)) ∧
  (∀ s : State, s.line.mode = .listen → s.line.phase = .inBreak → s.line.breakSeen = false →
    s.line.idlePending = false →
    exec .runShortOfBreak s = .next { s with line := { s.line with
      phase := .waiting, assembling := false, edge := false, runBefore := false, collided := false
      txd := .released } }) ∧
  (∀ s : State, s.line.mode = .listen → s.line.phase = .waiting →
    exec .runShortOfBreak s = .next { s with line := { s.line with runBefore := false } }) ∧
  (∀ s : State, s.line.mode = .listen → s.line.phase = .inBreak → s.line.breakSeen = true →
    exec .breakEnd s = .next { s with line := { s.line with
      phase := .header, breakSeen := false, header := [], check := 0xFF#8, assembling := false } }) ∧
  (∀ s : State,
    (s.line.mode = .listen → s.line.phase = .recovering →
      exec .recoveringRunEnd s = .next { s with line := { s.line with runBefore := false } }) ∧
    (s.line.mode ≠ .listen ∨ s.line.phase ≠ .recovering → exec .recoveringRunEnd s = .next s)) ∧
  (∀ s : State, s.line.mode = .listen → s.line.phase.inFlight = false → s.line.idlePending = false →
    exec .lineStuck s = .next { s with
      attention := { s.attention with conditions := s.attention.conditions ||| 0x20#8, attn := true }
      line := { s.line with
        phase := .recovering, assembling := false, edge := false, breakSeen := false, runBefore := false
        collided := false, txd := .released } }) ∧
  (∀ s : State, s.line.mode = .listen → s.line.phase = .recovering → s.line.idlePending = false →
    exec .recoveryComplete s = .next { s with line := { s.line with
      phase := .waiting, assembling := false, edge := false, breakSeen := false, runBefore := false
      collided := false, txd := .released } }) ∧
  ∀ s : State, s.line.mode = .listen → s.line.assembling = false →
    (s.line.phase ≠ .receiving → exec (.startBitSample false) s = .next s) ∧
    (s.line.phase = .header →
      exec (.startBitSample true) s = .next { s with line := { s.line with assembling := true } }) ∧
    (s.line.phase = .receiving →
      exec (.startBitSample false) s = .next { s with line := { s.line with edge := false } } ∧
      exec (.startBitSample true) s = .next { s with line := { s.line with
        assembling := true, startSeen := true, edge := false } })

/-- R89, R90, R129, R131, R139, R150: a run that reaches 12 Tb begins a new frame context in IN_BREAK, restarts the idle
timer and drops a pending expiry. In WAITING, SKIPPING and RECOVERING, and in IN_BREAK under a run from WAITING, it leaves
an open sequence as it is; it is no break where it was under way at the entry to LISTEN, nor in ANSWERING. In HEADER it
ends the header with HEADER_FRAMING and closes an open sequence with SEG_BROKEN. In SPACE the frame has collided (log 13).
In RECEIVING it cuts the frame: CUT is set, the landed data goes unused, a continuation's staged copy is freed with
SEG_BROKEN, and DAMAGED is posted. -/
def Obligations.BreakBeginsANewFrame : Prop :=
  (∀ s : State, s.line.mode = .listen →
    (s.line.phase = .skipping ∨ s.line.phase = .inBreak ∧ s.line.breakSeen = false ∨
        (s.line.phase = .waiting ∨ s.line.phase = .recovering) ∧ s.line.runBefore = false →
      exec .breakRecognised s = .next { s with line := s.line.atBreak s.line.seq }) ∧
    (s.line.phase = .answering ∨ s.line.phase = .inBreak ∧ s.line.breakSeen = true ∨
        (s.line.phase = .waiting ∨ s.line.phase = .recovering) ∧ s.line.runBefore = true →
      exec .breakRecognised s = .next s)) ∧
  (∀ s : State, s.line.mode = .listen → s.line.phase = .header →
    ∃ u : State, SequenceClosed s u ∧ exec .breakRecognised s = .next { u with
      attention := s.brokenPosting
        { s.attention with conditions := s.attention.conditions ||| 0x02#8, attn := true }
      line := s.line.atBreak none }) ∧
  ∀ (s : State) (a : Action) (e : EntryNo), s.line.mode = .listen → s.line.frame.entry = some e →
    s.line.frame.action = some a → (s.entry e).state.working = true → ClaimsOk s →
    s.line.phase = .space ∧ s.line.frame.asking = false ∧ (s.entry e).role = .source ∧ a ≠ .store ∨
      s.line.phase = .receiving ∧ (a = .store ∧ (s.entry e).role = .source ∨
        a = .fetch ∧ (s.entry e).role = .mirror) →
    ∃ (t : State) (after : AttentionUnit), exec .breakRecognised s = .next t ∧ t.host = s.host ∧ QueueKept s t ∧
      FrameFails a e s t after ∧ t.line = s.line.atBreak (if a = .fetch then none else s.line.seq) ∧
      t.attention = (if s.line.phase = .space then after.post e (1#13 <<< 5) else
        { after.post e (1#13 <<< 3) with conditions := s.attention.conditions ||| 0x40#8, attn := true })

/-- R93, R95, R96, R129, R130: SYNC, H1 and H2 are kept as they come, with the check register run over H1 and H2 but not
over SYNC; and each header fault sets its own line condition, leaves the phase SKIPPING and closes an open sequence
with SEG_BROKEN; no record, claim, mark or frame field is touched. -/
def Obligations.HeaderCharactersAreKeptOrFault : Prop :=
  (∀ (b : Byte) (s : State), s.line.mode = .listen → s.line.phase = .header →
    (s.line.header = [] → exec (.headerCharacter 0xC5#8 false) s = .next { s with line := { s.line with
      header := [0xC5#8], assembling := false } }) ∧
    (s.line.header.length = 1 ∨ s.line.header.length = 2 →
      exec (.headerCharacter b false) s = .next { s with line := { s.line with
        header := s.line.header ++ [b], check := crcByte s.line.check b, assembling := false } })) ∧
  ∀ (c : Instr) (bit : BitVec 8) (s : State), s.line.mode = .listen → s.line.phase = .header →
    s.line.idlePending = false →
    (∃ b : Byte, c = .headerCharacter b true ∧ bit = 0x02#8) ∨
      (∃ b : Byte, c = .headerCharacter b false ∧ s.line.header = [] ∧ b ≠ 0xC5#8 ∧ bit = 0x01#8) ∨
      (∃ b h1 h2 : Byte, c = .headerCharacter b false ∧ s.line.header = [0xC5#8, h1, h2] ∧ b ≠ s.line.check ∧
        bit = 0x04#8) ∨
      (∃ (h : Handle) (a : BitVec 3) (tag : Tag), c = .headerCharacter s.line.check false ∧ s.awaitsCheck h a tag ∧
        6 ≤ a.toNat ∧ bit = 0x10#8) ∨
      (c = .headerOvertime ∧ bit = 0x08#8) →
    ∃ t : State, exec c s = .next t ∧ t.line.mode = .listen ∧ t.line.phase = .skipping ∧
      t.line.frame = s.line.frame ∧ t.line.seq = none ∧ t.attention.conditions = s.attention.conditions ||| bit ∧
      t.attention.attn = true ∧ t.table.index = s.table.index ∧ t.table.inFlight = s.table.inFlight ∧
      t.claims = s.claims ∧ t.host = s.host ∧ t.pool.bytes = s.pool.bytes ∧ QueueKept s t ∧
      (s.line.seq = none → t.table = s.table ∧ t.pool = s.pool ∧ t.attention.records = s.attention.records ∧
        t.attention.list = s.attention.list) ∧
      (∀ q : SequenceContext, s.line.seq = some q →
        t.table = s.closeSequence.table ∧ t.pool = s.closeSequence.pool ∧
          t.attention.records = (s.attention.post q.entry (1#13 <<< 7)).records ∧
          t.attention.list = (s.attention.post q.entry (1#13 <<< 7)).list)

/-- R97, R104 to R107: a good header that is not the expected continuation closes an open sequence, SERVE or ASSEMBLE, with
SEG_BROKEN, and the rows of the path table that skip leave the phase SKIPPING with no mark, no n and no landing, keep what
the lookup found, and post what the row names. That SEG_BROKEN reaches the attention list before the row's own cause is the
model's choice (log 23). -/
def Obligations.SkippedHeadersFollowThePathTable : Prop :=
  ∀ (s base : State) (h : Handle) (a : Action) (tag : Tag) (posted after : AttentionUnit),
    s.awaitsCheck h a.code tag → s.line.idlePending = false → MeetsSequence s h a tag base posted →
    (s.table.lookup h = none ∧ after = posted) ∨
      (∃ e : EntryNo, s.table.lookup h = some e ∧ (s.entry e).state.working = true ∧
        ((a = .fetch ∧ (s.entry e).segments ≤ tag.toNat ∧ after = posted.post e (1#13 <<< 8)) ∨
          (a = .fetch ∧ tag.toNat < (s.entry e).segments ∧ (s.entry e).role = .source ∧
            (s.entry e).state = .draft ∧ after = posted) ∨
          (a = .fetch ∧ tag.toNat < (s.entry e).segments ∧ (s.entry e).role = .mirror ∧ tag ≠ 0#4 ∧
            (∀ q : SequenceContext, s.line.seq = some q → ¬ (q.handle = h ∧ q.next = tag.toNat)) ∧ after = posted) ∨
          (a = .store ∧ (s.entry e).role = .source ∧ 16 < (s.entry e).length ∧
            after = posted.post e (1#13 <<< 9)) ∨
          (a ≠ .fetch ∧ (s.entry e).role = .mirror ∧ after = posted))) →
    exec (.headerCharacter s.line.check false) s = .next { base with
      attention := after
      line := { base.line with
        phase := .skipping, assembling := false, edge := false, breakSeen := false, runBefore := false
        collided := false, txd := .released
        frame := { handle := some h, action := some a, tag := some tag, entry := s.table.lookup h
                   found := (s.table.lookup h).map fun e => ⟨(s.entry e).state, (s.entry e).role, (s.entry e).length⟩
                   segment := if a = .fetch then some tag else none } } }

/-- R97, R104 to R106, R115, R123: a STORE to a SOURCE of 16 bytes or less, a FETCH of segment 0 of a MIRROR, and the
expected continuation of a capture are received: the mark is set, n, the window deadline 12n + 16 and what the lookup found
stand in the frame context, the landing buffer is empty, a continuation's hold is cleared, and any other open sequence is
closed with SEG_BROKEN. -/
def Obligations.ReceivedHeadersStartAReception : Prop :=
  ∀ (s base : State) (h : Handle) (a : Action) (tag : Tag) (e : EntryNo) (n : Nat) (posted : AttentionUnit),
    s.awaitsCheck h a.code tag → s.table.lookup h = some e → (s.entry e).state.working = true →
    MeetsSequence s h a tag base posted →
    (a = .store ∧ (s.entry e).role = .source ∧ (s.entry e).length ≤ 16 ∧ n = (s.entry e).length + 1) ∨
      (a = .fetch ∧ (s.entry e).role = .mirror ∧ tag.toNat < (s.entry e).segments ∧
        n = (if tag.toNat + 1 < (s.entry e).segments then 18
          else (s.entry e).length - 16 * ((s.entry e).segments - 1) + 2) ∧
        (tag = 0#4 ∨ ∃ q : SequenceContext, s.line.seq = some q ∧ q.handle = h ∧ q.next = tag.toNat)) →
    exec (.headerCharacter s.line.check false) s = .next { base with
      table := { base.table with inFlight := some e }
      attention := posted
      line := { base.line with
        phase := .receiving, assembling := false, landing := [], startSeen := false, edge := false
        frame := { handle := some h, action := some a, tag := some tag, entry := some e
                   found := some ⟨(s.entry e).state, (s.entry e).role, (s.entry e).length⟩
                   segment := if a = .fetch then some tag else none
                   n := some n, deadline := some (12 * n + 16) } } }

/-- R66, R69, R105, R118: a CLAIM of a SOURCE closes any open sequence with SEG_BROKEN and enters SPACE with the mark set,
n = 2 and its window; its decision goes by the first row of R69 that holds: the code kept in the frame context, the slot
reserved, DENIED posted after SEG_BROKEN (log 23). It is taken at once, unless a host command stands handed to its block:
then the order is free (log 10). A slot that is RESERVED names the entry of a frame in flight, so no header meets one
(log 16). -/
def Obligations.LineClaimIsDecidedAtItsHeader : Prop :=
  ∀ (s base taken : State) (h : Handle) (tag : Tag) (e : EntryNo) (posted : AttentionUnit),
    s.awaitsCheck h Action.claim.code tag → s.table.lookup h = some e → (s.entry e).state.working = true →
    (s.entry e).role = .source → MeetsSequence s h .claim tag base posted → ClaimsOk s →
    ClaimDecided (base.enteredSpace posted h .claim tag e 2 true) e tag taken →
    AnswersHeader s (base.enteredSpace posted h .claim tag e 2 true) taken

/-- R75, R80, R105, R119, R120, R121: a RELEASE, a RETIRE or a PROBE of a SOURCE closes any open sequence with SEG_BROKEN and
enters SPACE. A RELEASE is decided from the slot that names the entry, with no slot changed, and a PROBE's four bytes are
read, at once, unless a host command stands handed to its block: then the order is free (log 10). A line RETIRE is decided
within the decode from RETIRE_OK and the claim check, with DENIED for REFUSED after SEG_BROKEN (log 23). -/
def Obligations.ReleaseRetireAndProbeHeaders : Prop :=
  ∀ (s base : State) (h : Handle) (tag : Tag) (e : EntryNo) (a : Action) (posted : AttentionUnit),
    s.awaitsCheck h a.code tag → s.table.lookup h = some e → (s.entry e).state.working = true →
    (s.entry e).role = .source → MeetsSequence s h a tag base posted → ClaimsOk s →
    (∀ taken : State, a = .release → ReleaseDecided (base.enteredSpace posted h a tag e 2 true) e tag taken →
      AnswersHeader s (base.enteredSpace posted h a tag e 2 true) taken) ∧
    (∀ taken : State, a = .probe → ProbeRead (base.enteredSpace posted h a tag e 5 true) e taken →
      AnswersHeader s (base.enteredSpace posted h a tag e 5 true) taken) ∧
    ∀ (code : AnswerCode) (after : AttentionUnit) (t : State), a = .retire →
      t = base.enteredSpace after h a tag e 2 false →
      ((s.entry e).permits.retireOk = true ∧ s.claims.blocksLine e tag = false ∧ code = .retired ∧ after = posted) ∨
        (((s.entry e).permits.retireOk = false ∨ s.claims.blocksLine e tag = true) ∧ code = .refused ∧
          after = posted.post e (1#13 <<< 9)) →
      exec (.headerCharacter s.line.check false) s = .next { t with
        line := { t.line with frame := { t.line.frame with code := some code } } }

/-- R44, R62, R83, R104, R105, R108: a FETCH of a SOURCE in LIVE or STALE is answered: a fresh one closes any open sequence
with SEG_BROKEN and places the pin on the current copy, the expected continuation passes the sequence's pin to the frame and
clears the hold; the tag byte carries the pinned copy's version, STALE and CLAIMED as they stand. The request is taken at
once, unless a host command stands handed to its block: then the order is free (log 10). -/
def Obligations.FetchHeaderPinsAndTags : Prop :=
  ∀ (s base taken : State) (h : Handle) (tag : Tag) (e : EntryNo) (n : Nat) (posted : AttentionUnit),
    s.awaitsCheck h Action.fetch.code tag → s.table.lookup h = some e →
    (s.entry e).state = .live ∨ (s.entry e).state = .stale → (s.entry e).role = .source →
    tag.toNat < (s.entry e).segments →
    n = (if tag.toNat + 1 < (s.entry e).segments then 18
      else (s.entry e).length - 16 * ((s.entry e).segments - 1) + 2) →
    MeetsSequence s h .fetch tag base posted →
    FetchTagged (base.enteredSpace posted h .fetch tag e n true) e taken →
    AnswersHeader s (base.enteredSpace posted h .fetch tag e n true) taken

/-! ## Answering -/

/-- R96, R98, R109: at the end of the response space the part begins its answer: for FETCH the segment's data bytes from
the pinned copy, in record order, and the tag byte; for PROBE its four bytes; for the others the code decided; then the
check, run on from the header. R66, R98, R108, R118 to R120, R131: a request for the answer that has waited is taken first,
as every block stands then, at the end of the space and at whatever ends the frame in SPACE: a RETIRING record is reported
as 4 and its FETCH tagged with STALE clear. -/
def Obligations.ResponseSpaceEndBeginsTheAnswer : Prop :=
  (∀ (s : State) (e : EntryNo) (a : Action) (payload : List Byte), s.line.mode = .listen → s.line.phase = .space →
    s.line.frame.asking = false → s.line.frame.entry = some e → s.line.frame.action = some a →
    (a = .fetch ∧ ∃ (p : Pin) (copy : List CellNo) (segment : Tag) (tagged : Byte), s.table.pin = some p ∧
        p.entry = e ∧ s.line.frame.segment = some segment ∧ s.line.frame.reply = [tagged] ∧
        ((p.kind = .current ∧ (s.entry e).current = some copy) ∨
          (p.kind = .held ∧ ∃ version : Version, (s.entry e).held = some ⟨copy, version⟩)) ∧
        payload = ((List.range (if segment.toNat + 1 < (s.entry e).segments then 16
            else (s.entry e).length - 16 * ((s.entry e).segments - 1))).map fun i =>
          s.pool.peek copy (16 * segment.toNat + i)) ++ [tagged]) ∨
      (a = .probe ∧ payload = s.line.frame.reply) ∨
      (a ≠ .fetch ∧ a ≠ .probe ∧ ∃ code : AnswerCode, s.line.frame.code = some code ∧ payload = [code.code]) →
    exec .responseSpaceEnd s = .next { s with line := { s.line with
      phase := .answering, collided := false, txd := .answer
      frame := { s.line.frame with answer := payload ++ [crcRun s.line.check payload] } } }) ∧
  ∀ (c : Instr) (s taken : State) (a : Action) (e : EntryNo) (tag : Tag), s.line.mode = .listen →
    s.line.phase = .space → s.line.frame.asking = true → s.line.frame.entry = some e →
    s.line.frame.action = some a → s.line.frame.tag = some tag → ClaimsOk s → RequestTaken s a e tag taken →
    c = .responseSpaceEnd ∨ c = .spaceCollision ∨ c = .breakRecognised ∨ c = .lineStuck ∨
      c = .setMode 0x00#8 ∧ s.Takes c →
    exec c s = exec c taken

/-- R71, R103, R110, R131, R132, R90: a collision in the space ends the frame at once; a readback mismatch releases TXD
and ends it at the character's end, where a break that goes on is recognised. A FETCH releases its pin, and a continuation
closes its sequence with SEG_BROKEN; a CLAIM loses its reservation, and a renewal its claim with CLAIM_ENDED; nothing takes
effect, and COLLIDED is posted. -/
def Obligations.CollisionsEndTheFrame : Prop :=
  (∀ s : State, s.line.mode = .listen → s.line.phase = .answering → s.host.work ≠ some .offline →
    s.host.work ≠ some .restart →
    exec .readbackMismatch s = .next { s with line := { s.line with collided := true, txd := .released } }) ∧
  ∀ (c : Instr) (a : Action) (e : EntryNo) (s : State), s.line.mode = .listen → s.line.idlePending = false →
    c = .spaceCollision ∧ s.line.phase = .space ∧ s.line.frame.asking = false ∨
      (∃ goesOn : Bool, c = .collidedCharacterEnd goesOn) ∧ s.line.phase = .answering ∧ s.line.collided = true ∧
        s.host.work ≠ some .offline ∧ s.host.work ≠ some .restart →
    s.line.frame.entry = some e → s.line.frame.action = some a → a ≠ .store →
    (s.entry e).state.working = true → (s.entry e).role = .source → ClaimsOk s →
    ∃ (t : State) (after : AttentionUnit), exec c s = .next t ∧ t.host = s.host ∧ QueueKept s t ∧
      FrameFails a e s t after ∧ t.attention = after.post e (1#13 <<< 5) ∧
      (c ≠ .collidedCharacterEnd true →
        LineSettles .skipping (if a = .fetch then none else s.line.seq) s.line.landing s t) ∧
      (c = .collidedCharacterEnd true → t.line = s.line.atBreak (if a = .fetch then none else s.line.seq))

/-- R45, R46, R70, R76, R110, R120, R121: what the complete answer of each action hands to the other blocks. A FETCH below
the last segment passes its pin to a SERVE sequence whose hold is H; the last segment releases it, and a held copy is freed.
A CLAIM still reserved is HELD with a full lease, and CLAIM_TAKEN is posted unless it renews; a RELEASED answer frees the
slot still HELD under its tag, with CLAIM_ENDED. A PROBE, a NOT_HOLDER and a REFUSED change nothing more. -/
def Obligations.CompleteAnswersTakeEffect : Prop :=
  ∀ (a : Action) (e : EntryNo) (s : State), s.line.mode = .listen → s.line.idlePending = false →
    s.line.phase = .answering → s.line.collided = false → s.host.work ≠ some .offline →
    s.host.work ≠ some .restart → s.line.frame.entry = some e → s.line.frame.action = some a → a ≠ .store →
    (a = .retire → s.line.frame.code = some .refused) →
    (s.entry e).state.working = true → (s.entry e).role = .source → ClaimsOk s →
    ∃ t : State, exec .answerComplete s = .next t ∧ t.host = s.host ∧ t.table.inFlight = none ∧
      t.table.index = s.table.index ∧ t.pool.bytes = s.pool.bytes ∧ QueueKept s t ∧
      (a ≠ .fetch → t.table = { s.table with inFlight := none } ∧ t.pool = s.pool ∧
        LineSettles .waiting s.line.seq s.line.landing s t) ∧
      (a = .probe ∨ a = .retire ∨ a = .release ∧ s.line.frame.code ≠ some .released ∨
          a = .claim ∧ (∀ k : SlotNo, (s.claims.slot k).isReserved = false) →
        t.claims = s.claims ∧ t.attention = s.attention) ∧
      (∀ (k : SlotNo) (tag : Tag) (lease : Nat) (renewal : Bool), a = .claim →
        s.claims.slot k = .reserved e tag lease renewal →
        t.claims = { s.claims with slots := s.claims.slots.set k.val (.heldLine e tag s.claims.lease) } ∧
          t.attention = if renewal = true then s.attention else s.attention.post e (1#13 <<< 10)) ∧
      (∀ tag : Tag, a = .release → s.line.frame.code = some .released → s.line.frame.tag = some tag →
        (∀ (k : SlotNo) (lease : Nat), s.claims.slot k = .heldLine e tag lease →
          t.claims = { s.claims with slots := s.claims.slots.set k.val .free } ∧
            t.attention = s.attention.post e (1#13 <<< 11)) ∧
        ((∀ (k : SlotNo) (lease : Nat), s.claims.slot k ≠ .heldLine e tag lease) →
          t.claims = s.claims ∧ t.attention = s.attention)) ∧
      (∀ (p : Pin) (segment : Tag), a = .fetch → s.line.frame.segment = some segment → s.table.pin = some p →
        p.entry = e → t.claims = s.claims ∧ t.attention = s.attention ∧
        (segment.toNat + 1 < (s.entry e).segments →
          LineSettles .waiting
              (some ⟨.serve, (s.entry e).handle, e, segment.toNat + 1, none, some s.line.hold⟩) s.line.landing s t ∧
            t.table = { s.table with inFlight := none, pin := some { p with owner := .sequence } } ∧
            t.pool = s.pool) ∧
        ((s.entry e).segments ≤ segment.toNat + 1 → LineSettles .waiting none s.line.landing s t ∧ t.table.pin = none ∧
          (∀ d : EntryNo, d ≠ e → t.entry d = s.entry d) ∧
          (p.kind = .current → t.entry e = s.entry e ∧ t.pool = s.pool) ∧
          (∀ copy : HeldCopy, p.kind = .held → (s.entry e).held = some copy →
            t.entry e = { s.entry e with held := none } ∧
              t.pool = { s.pool with free := s.pool.free ++ copy.cells })))

/-- R22, R24, R25, R26: a RETIRED answer sent to its end tears the entry down and leaves it ENDED with its age 0, its
posting ENDING and RETIRED posted; and the end of the frame in flight on a RETIRING entry, however it ends (a complete
answer, a collision with or without a break that goes on, a response good or faulty, the deadline, a break, OFFLINE), tears
it down to VACANT, with no cause kept for it. -/
def Obligations.FrameEndsTearDown : Prop :=
  ∀ (c : Instr) (ends : Bool) (e : EntryNo) (s : State), s.line.mode = .listen →
    s.line.frame.entry = some e → IndexOk s → AttentionOk s → ClaimsOk s →
    (s.line.phase = .space ∨ s.line.phase = .answering → (s.entry e).role = .source) →
    (s.line.phase = .space → s.line.frame.asking = false) →
    (ends = true ∧ c = .answerComplete ∧ s.line.frame.action = some .retire ∧
        s.line.frame.code = some .retired ∧ (s.entry e).state.working = true) ∨
      (ends = false ∧ (s.entry e).state = .retiring) →
    ∀ (p : Phase) (landing : List Byte) (settles breaks offline : Bool) (bit : BitVec 8),
    (settles = true ∧ breaks = false ∧ offline = false ∧ bit = 0x00#8 ∧ s.line.idlePending = false ∧
        s.host.work ≠ some .offline ∧ s.host.work ≠ some .restart ∧
        (c = .answerComplete ∧ s.line.phase = .answering ∧ s.line.collided = false ∧ p = .waiting ∧
            landing = s.line.landing ∨
          c = .collidedCharacterEnd false ∧ s.line.phase = .answering ∧ s.line.collided = true ∧ p = .skipping ∧
            landing = s.line.landing ∨
          c = .spaceCollision ∧ s.line.phase = .space ∧ p = .skipping ∧ landing = s.line.landing ∨
          c = .responseWindowDeadline ∧ s.line.phase = .receiving ∧ p = .skipping ∧ landing = s.line.landing ∨
          (∃ b : Byte, c = .responseCharacter b true) ∧ s.line.phase = .receiving ∧ p = .skipping ∧
            landing = s.line.landing ∨
          (∃ b : Byte, c = .responseCharacter b false ∧ landing = s.line.landing ++ [b]) ∧
            s.line.phase = .receiving ∧ s.line.frame.n = some (s.line.landing.length + 1) ∧ p = .skipping)) ∨
      (settles = false ∧ breaks = true ∧ offline = false ∧ ends = false ∧
        (c = .collidedCharacterEnd true ∧ s.line.phase = .answering ∧ s.line.collided = true ∧
            s.host.work ≠ some .offline ∧ s.host.work ≠ some .restart ∧ bit = 0x00#8 ∨
          c = .breakRecognised ∧ s.line.phase = .space ∧ bit = 0x00#8 ∨
          c = .breakRecognised ∧ s.line.phase = .receiving ∧ bit = 0x40#8)) ∨
      (settles = false ∧ breaks = false ∧ offline = true ∧ ends = false ∧
        (∀ q : SequenceContext, s.line.seq = some q → q.entry = e) ∧
        (c = .setMode 0x00#8 ∧ s.Takes c ∧ (s.line.phase = .space ∨ s.line.phase = .receiving) ∧ bit = 0x80#8 ∨
          c = .offlineCharacterEnd ∧ s.host.work = some .offline ∧ s.line.phase = .answering ∧
            bit = if s.line.collided = true then 0x00#8 else 0x80#8)) →
    ∃ t : State, exec c s = .next t ∧ QueueKept s t ∧
      t.host = (if offline = true then s.host.completed .done [0x00#8] else s.host) ∧
      (settles = true → LineSettles p (s.line.seq.filter fun q => decide (q.entry ≠ e)) landing s t) ∧
      (breaks = true → t.line = s.line.atBreak (s.line.seq.filter fun q => decide (q.entry ≠ e))) ∧
      (offline = true → t.line.mode = .offline ∧ t.line.phase = .waiting ∧ t.line.frame = {} ∧ t.line.seq = none ∧
        t.line.landing = [] ∧ t.line.idle = none ∧ t.line.txd = .released) ∧
      (∀ d : EntryNo, d ≠ e → t.entry d = s.entry d) ∧
      (ends = true → t.entry e = { s.entry e with
        state := .ended, age := 0, current := none, staged := none, held := none }) ∧
      (ends = false → (t.entry e).state = .vacant ∧ (t.entry e).cells = []) ∧
      t.table.lookup (s.entry e).handle = none ∧
      (∀ h : Handle, h ≠ (s.entry e).handle → t.table.lookup h = s.table.lookup h) ∧ t.table.inFlight = none ∧
      t.table.pin = (s.table.pin.filter fun p => decide (p.entry ≠ e)) ∧
      t.pool = { s.pool with free := s.pool.free ++ (s.entry e).cells } ∧ t.claims.lease = s.claims.lease ∧
      (∀ k : SlotNo, t.claims.slot k = if (s.claims.slot k).names e = true then .free else s.claims.slot k) ∧
      t.attention = if ends = true then
          (s.attention.setRecord e { s.attention.record e with posting := .ending }).post e (1#13 <<< 12)
        else if bit = 0x00#8 then s.attention
        else { s.attention with conditions := s.attention.conditions ||| bit, attn := true }

/-! ## Receiving -/

/-- R96, R100, R134 to R137: a good character below the n-th joins the landing buffer and the check; a dominant stop bit and
a wrong check are DAMAGED, and the window's deadline is OVERTIME once a start edge has been seen, be it one whose sample is
still to come, and NO_ANSWER before. A reception that fails applies nothing, and a continuation's assembly is freed with
SEG_BROKEN; what has landed stays in the buffer, unread (R102). -/
def Obligations.ReceptionFaultsPostTheirCause : Prop :=
  (∀ (b : Byte) (n : Nat) (s : State), s.line.mode = .listen → s.line.phase = .receiving →
    s.line.frame.n = some n → s.line.landing.length + 1 < n →
    exec (.responseCharacter b false) s = .next { s with line := { s.line with
      landing := s.line.landing ++ [b], check := crcByte s.line.check b, assembling := false
      startSeen := true, edge := false } }) ∧
  ∀ (c : Instr) (bit : Nat) (landing : List Byte) (a : Action) (e : EntryNo) (s : State), s.line.mode = .listen →
    s.line.phase = .receiving → s.line.idlePending = false → s.line.frame.entry = some e →
    s.line.frame.action = some a → (s.entry e).state.working = true → CopiesOk s →
    a = .store ∧ (s.entry e).role = .source ∨ a = .fetch ∧ (s.entry e).role = .mirror →
    (∃ b : Byte, c = .responseCharacter b true ∧ bit = 3 ∧ landing = s.line.landing) ∨
      (∃ b : Byte, c = .responseCharacter b false ∧ s.line.frame.n = some (s.line.landing.length + 1) ∧
        b ≠ s.line.check ∧ bit = 3 ∧ landing = s.line.landing ++ [b]) ∨
      (c = .responseWindowDeadline ∧ landing = s.line.landing ∧
        bit = if s.line.startSeen = true ∨ s.line.edge = true then 4 else 2) →
    ∃ (t : State) (after : AttentionUnit), exec c s = .next t ∧ t.host = s.host ∧ t.claims = s.claims ∧
      QueueKept s t ∧ FrameFails a e s t after ∧ t.attention = after.post e (1#13 <<< bit) ∧
      t.table.pin = s.table.pin ∧ LineSettles .skipping none landing s t

/-- R48, R49, R80, R116: STORE data that lands with a good check is DENIED where STORE_OK is no or a slot names the entry
but is not a LINE claim under the header's tag; else it overwrites the current copy in place, or makes one in the cell at
the head of the free list filled with 00h, at the next version, LIVE with its age restarted and UPDATED posted; with no free
cell it is DROPPED. -/
def Obligations.StoresAreAcceptedDeniedOrDropped : Prop :=
  ∀ (e : EntryNo) (tag : Tag) (s : State), s.line.mode = .listen → s.line.phase = .receiving →
    s.line.idlePending = false → s.line.frame.entry = some e → s.line.frame.action = some .store →
    s.line.frame.tag = some tag → (s.entry e).state.working = true → (s.entry e).role = .source →
    s.line.landing.length = (s.entry e).length → (s.entry e).length ≤ 16 →
    s.line.frame.n = some ((s.entry e).length + 1) → ClaimsOk s → MemoryOk s →
    ∃ t : State, exec (.responseCharacter s.line.check false) s = .next t ∧
      LineSettles .skipping s.line.seq (s.line.landing ++ [s.line.check]) s t ∧
      t.host = s.host ∧ t.claims = s.claims ∧ QueueKept s t ∧ t.table.index = s.table.index ∧
      t.table.inFlight = none ∧ t.table.pin = s.table.pin ∧ (∀ d : EntryNo, d ≠ e → t.entry d = s.entry d) ∧
      ((s.entry e).permits.storeOk = false ∨
          (∃ k : SlotNo, (s.claims.slot k).names e = true ∧
            ∀ lease : Nat, s.claims.slot k ≠ .heldLine e tag lease) →
        t.entry e = s.entry e ∧ t.pool = s.pool ∧ t.attention = s.attention.post e (1#13 <<< 9)) ∧
      ((s.entry e).permits.storeOk = true →
        (∀ k : SlotNo, (s.claims.slot k).names e = true → ∃ lease : Nat, s.claims.slot k = .heldLine e tag lease) →
        (∀ cell : CellNo, (s.entry e).current = some [cell] →
          t.entry e = { s.entry e with state := .live, age := 0, version := (s.entry e).version + 1 } ∧
            t.pool.free = s.pool.free ∧ BytesHold [cell] 0 s.line.landing t ∧
            BytesKeptBut [cell] 0 (s.entry e).length s t ∧ t.attention = s.attention.post e (1#13 <<< 0)) ∧
        ((s.entry e).current = none → s.pool.free = [] →
          t.entry e = s.entry e ∧ t.pool = s.pool ∧ t.attention = s.attention.post e (1#13 <<< 6)) ∧
        ∀ (cell : CellNo) (rest : List CellNo), (s.entry e).current = none → s.pool.free = cell :: rest →
          t.entry e = { s.entry e with
            state := .live, age := 0, version := (s.entry e).version + 1, current := some [cell] } ∧
            t.pool.free = rest ∧ BytesHold [cell] 0 s.line.landing t ∧
            (∀ o : Nat, (s.entry e).length ≤ o → o < 16 → t.pool.peek [cell] o = 0x00#8) ∧
            BytesKeptBut [cell] 0 16 s t ∧ t.attention = s.attention.post e (1#13 <<< 0))

/-- R51, R63, R124: a good capture of a MIRROR of 16 bytes or less overwrites its current copy in place, or makes one in
the cell at the head of the free list filled with 00h: the version and the source flags come from the tag byte, the age
restarts, the entry is LIVE and UPDATED is posted; with no free cell the data is DROPPED and nothing changes.
R52, R53, R125 to R127: of a longer MIRROR, segment 0 makes a staged copy of S cells filled with 00h and opens a sequence
with the captured version and the hold H, or is DROPPED; a later segment at another version frees the staged copy with
SEG_BROKEN; one below the last is written into its cell; and the last makes the staged copy current and frees the old one. -/
def Obligations.GoodCapturesAreApplied : Prop :=
  ∀ (e : EntryNo) (data landing : List Byte) (tagged : Byte) (captured : Entry) (s : State), s.line.mode = .listen →
    s.line.phase = .receiving → s.line.idlePending = false → s.line.frame.entry = some e →
    s.line.frame.action = some .fetch → (s.entry e).state.working = true → (s.entry e).role = .mirror →
    s.line.landing = data ++ [tagged] → landing = s.line.landing ++ [s.line.check] →
    s.line.frame.n = some (data.length + 2) → 1 ≤ data.length → data.length ≤ 16 → MemoryOk s → CellsOk s → CopiesOk s →
    captured = { s.entry e with
      state := .live, age := 0, version := tagged.extractLsb' 0 6
      staleSeen := tagged.getLsbD 6, claimedSeen := tagged.getLsbD 7 } →
    ∃ t : State, exec (.responseCharacter s.line.check false) s = .next t ∧
      t.host = s.host ∧ t.claims = s.claims ∧ QueueKept s t ∧ t.table.index = s.table.index ∧
      t.table.inFlight = none ∧ t.table.pin = s.table.pin ∧ (∀ d : EntryNo, d ≠ e → t.entry d = s.entry d) ∧
      ((s.entry e).segments = 1 → LineSettles .skipping s.line.seq landing s t ∧
        (∀ cell : CellNo, (s.entry e).current = some [cell] →
          t.entry e = captured ∧ t.pool.free = s.pool.free ∧ BytesHold [cell] 0 data t ∧
            BytesKeptBut [cell] 0 data.length s t ∧ t.attention = s.attention.post e (1#13 <<< 0)) ∧
        ((s.entry e).current = none → s.pool.free = [] →
          t.entry e = s.entry e ∧ t.pool = s.pool ∧ t.attention = s.attention.post e (1#13 <<< 6)) ∧
        (∀ (cell : CellNo) (rest : List CellNo), (s.entry e).current = none → s.pool.free = cell :: rest →
          t.entry e = { captured with current := some [cell] } ∧ t.pool.free = rest ∧ BytesHold [cell] 0 data t ∧
            (∀ o : Nat, data.length ≤ o → o < 16 → t.pool.peek [cell] o = 0x00#8) ∧
            BytesKeptBut [cell] 0 16 s t ∧ t.attention = s.attention.post e (1#13 <<< 0))) ∧
      (2 ≤ (s.entry e).segments → s.line.seq = none →
        (s.pool.free.length < (s.entry e).segments → LineSettles .skipping none landing s t ∧ t.entry e = s.entry e ∧
          t.pool = s.pool ∧ t.attention = s.attention.post e (1#13 <<< 6)) ∧
        (∀ cells : List CellNo, (s.entry e).segments ≤ s.pool.free.length →
          cells = s.pool.free.take (s.entry e).segments →
          LineSettles .skipping
              (some ⟨.assemble, (s.entry e).handle, e, 1, some (tagged.extractLsb' 0 6), some s.line.hold⟩) landing s t ∧
            t.entry e = { s.entry e with staged := some cells } ∧
            t.pool.free = s.pool.free.drop (s.entry e).segments ∧ BytesHold cells 0 data t ∧
            (∀ o : Nat, data.length ≤ o → o < 16 * (s.entry e).segments → t.pool.peek cells o = 0x00#8) ∧
            BytesKeptBut cells 0 (16 * (s.entry e).segments) s t ∧ t.attention = s.attention)) ∧
      ∀ (q : SequenceContext) (cells : List CellNo), 2 ≤ (s.entry e).segments → s.line.seq = some q →
        q.kind = .assemble → q.entry = e → q.next < (s.entry e).segments → (s.entry e).staged = some cells →
        (q.version ≠ some (tagged.extractLsb' 0 6) → LineSettles .skipping none landing s t ∧
          t.entry e = { s.entry e with staged := none } ∧
          t.pool = { s.pool with free := s.pool.free ++ cells } ∧
          t.attention = s.attention.post e (1#13 <<< 7)) ∧
        (q.version = some (tagged.extractLsb' 0 6) →
          BytesHold cells (16 * q.next) data t ∧ BytesKeptBut cells (16 * q.next) data.length s t ∧
          (q.next + 1 < (s.entry e).segments →
            LineSettles .skipping (some { q with next := q.next + 1, hold := some s.line.hold }) landing s t ∧
            t.entry e = s.entry e ∧ t.pool.free = s.pool.free ∧ t.attention = s.attention) ∧
          (q.next + 1 = (s.entry e).segments →
            LineSettles .skipping none landing s t ∧
            t.entry e = { captured with current := some cells, staged := none } ∧
            t.pool.free = s.pool.free ++ (s.entry e).current.getD [] ∧
            t.attention = s.attention.post e (1#13 <<< 0)))

/-! ## The invariants -/

/-- Every invariant of Safety.lean holds of the part right after its initialisation. -/
def Obligations.ResetMeetsTheInvariants : Prop :=
  MemoryOk State.reset ∧ LineOk State.reset ∧ HostOk State.reset ∧ FlightOk State.reset ∧ AttentionOk State.reset ∧
    IndexOk State.reset ∧ RangesOk State.reset ∧ ClaimsOk State.reset ∧ CopiesOk State.reset ∧ CellsOk State.reset

/-- R28: every step keeps the canonical form of the cells' bytes. -/
def Obligations.StepKeepsMemoryCanonical : Prop :=
  ∀ s t : State, step s = .next t → MemoryOk s → MemoryOk t

/-- R85, R89, R98, R100, R101, R102, R143, R150: every step keeps the Line Unit quiet outside LISTEN, with the landing buffer
empty there (R101, R147; that a break leaves it as it is follows the table of R102, log 30), TXD driven only in ROUSING and
in ANSWERING, a deferred idle expiry only in a phase that defers it, the landing buffer within its 18 bytes and within n in
RECEIVING, and the model's own flags for a run under way at the entry to LISTEN, a start edge seen and a request that waits
(logs 13, 31, 10) in the phases they speak of. -/
def Obligations.StepKeepsTheLineUnitConsistent : Prop :=
  ∀ s t : State, step s = .next t → LineOk s → LineOk t

/-- R165 to R170, R172, R174, R175: every step keeps READY, CS, SDO, the reset's progress and the command outstanding as
the port's state says, the ROUSE that completes with ROUSING, BUSY out of the reply slot, and the reply and the command
buffer within their sizes. -/
def Obligations.StepKeepsTheHostPortConsistent : Prop :=
  ∀ s t : State, step s = .next t → HostOk s → HostOk t

/-- R11, R12, R25, R159: every step keeps the in-flight mark on the entry of the frame in flight, that entry in the Handle
Index's four states, RETIRING only under the mark, and ENDED whatever a TAKE is to vacate. -/
def Obligations.StepKeepsTheFlightMark : Prop :=
  ∀ s t : State, step s = .next t → FlightOk s → FlightOk t

/-- R154 to R160, R164: every step keeps ATTN at the list and the condition set, each entry with causes on the list once
and no other, RETIRED in every mask, no cause on a CLOSED record, and the posting state that the entry's state calls
for. -/
def Obligations.StepKeepsTheAttentionList : Prop :=
  ∀ s t : State, step s = .next t → FlightOk s → HostOk s → AttentionOk s → AttentionOk t

/-- R3 to R9, R56, R61, R144: every step keeps the Handle Index at exactly the handles of the entries in DRAFT, LIVE, STALE
and RETIRING, and every field of the entries and of the configuration in its range. -/
def Obligations.StepKeepsTheRecordTable : Prop :=
  ∀ s t : State, step s = .next t → FlightOk s → IndexOk s → RangesOk s → IndexOk t ∧ RangesOk t

/-- R66 to R74: every step keeps each slot that is not FREE on a SOURCE entry in the Handle Index, no entry on two slots,
a RESERVED slot with the CLAIM frame in flight, and every lease in its range. -/
def Obligations.StepKeepsTheClaimTable : Prop :=
  ∀ s t : State, step s = .next t → FlightOk s → ClaimsOk s → ClaimsOk t

/-- R11, R32, R33, R43 to R47, R104, R110, R111: every step keeps the copies that each state and role may have, a held copy
only under the pin, a MIRROR's staged copy only under an open ASSEMBLE sequence, and the pin and the sequence with the
frame or the record they serve. -/
def Obligations.StepKeepsTheCopies : Prop :=
  ∀ s t : State, step s = .next t → FlightOk s → LineOk s → IndexOk s → RangesOk s → CopiesOk s → CopiesOk t

/-- R28 to R33: every step keeps each of the 384 cells on the free list once, or once in one copy. -/
def Obligations.StepKeepsEveryCellOnce : Prop :=
  ∀ s t : State, step s = .next t → FlightOk s → LineOk s → IndexOk s → RangesOk s → CopiesOk s → CellsOk s →
    CellsOk t
end

