-- ==== Sys2Proof/Laws/State.lean ====
section
/-! SUPPORT. What each named update of the state does to each field, true by definition, so that no proof need unfold
a record update. -/

namespace Sys2Proof.Machine

variable (s : State)

/-! ## `State.setEntry` -/

@[simp] theorem State.setEntry_table (e : EntryNo) (x : Entry) : (s.setEntry e x).table = s.table.setEntry e x := rfl
@[simp] theorem State.setEntry_pool (e : EntryNo) (x : Entry) : (s.setEntry e x).pool = s.pool := rfl
@[simp] theorem State.setEntry_claims (e : EntryNo) (x : Entry) : (s.setEntry e x).claims = s.claims := rfl
@[simp] theorem State.setEntry_line (e : EntryNo) (x : Entry) : (s.setEntry e x).line = s.line := rfl
@[simp] theorem State.setEntry_attention (e : EntryNo) (x : Entry) : (s.setEntry e x).attention = s.attention := rfl
@[simp] theorem State.setEntry_host (e : EntryNo) (x : Entry) : (s.setEntry e x).host = s.host := rfl
@[simp] theorem State.setEntry_orderCount (e : EntryNo) (x : Entry) : (s.setEntry e x).orderCount = s.orderCount := rfl
@[simp] theorem State.setEntry_requestCount (e : EntryNo) (x : Entry) :
    (s.setEntry e x).requestCount = s.requestCount := rfl
@[simp] theorem State.setEntry_pending (e : EntryNo) (x : Entry) : (s.setEntry e x).pending = s.pending := rfl

/-! ## `State.setInFlight` -/

@[simp] theorem State.setInFlight_table (m : Option EntryNo) :
    (s.setInFlight m).table = { s.table with inFlight := m } := rfl
@[simp] theorem State.setInFlight_pool (m : Option EntryNo) : (s.setInFlight m).pool = s.pool := rfl
@[simp] theorem State.setInFlight_claims (m : Option EntryNo) : (s.setInFlight m).claims = s.claims := rfl
@[simp] theorem State.setInFlight_line (m : Option EntryNo) : (s.setInFlight m).line = s.line := rfl
@[simp] theorem State.setInFlight_attention (m : Option EntryNo) : (s.setInFlight m).attention = s.attention := rfl
@[simp] theorem State.setInFlight_host (m : Option EntryNo) : (s.setInFlight m).host = s.host := rfl
@[simp] theorem State.setInFlight_orderCount (m : Option EntryNo) : (s.setInFlight m).orderCount = s.orderCount := rfl
@[simp] theorem State.setInFlight_requestCount (m : Option EntryNo) :
    (s.setInFlight m).requestCount = s.requestCount := rfl
@[simp] theorem State.setInFlight_pending (m : Option EntryNo) : (s.setInFlight m).pending = s.pending := rfl
@[simp] theorem State.setInFlight_entry (m : Option EntryNo) (d : EntryNo) :
    (s.setInFlight m).entry d = s.entry d := rfl

/-! ## `State.setPin` -/

@[simp] theorem State.setPin_table (p : Option Pin) : (s.setPin p).table = { s.table with pin := p } := rfl
@[simp] theorem State.setPin_pool (p : Option Pin) : (s.setPin p).pool = s.pool := rfl
@[simp] theorem State.setPin_claims (p : Option Pin) : (s.setPin p).claims = s.claims := rfl
@[simp] theorem State.setPin_line (p : Option Pin) : (s.setPin p).line = s.line := rfl
@[simp] theorem State.setPin_attention (p : Option Pin) : (s.setPin p).attention = s.attention := rfl
@[simp] theorem State.setPin_host (p : Option Pin) : (s.setPin p).host = s.host := rfl
@[simp] theorem State.setPin_orderCount (p : Option Pin) : (s.setPin p).orderCount = s.orderCount := rfl
@[simp] theorem State.setPin_requestCount (p : Option Pin) : (s.setPin p).requestCount = s.requestCount := rfl
@[simp] theorem State.setPin_pending (p : Option Pin) : (s.setPin p).pending = s.pending := rfl
@[simp] theorem State.setPin_entry (p : Option Pin) (d : EntryNo) : (s.setPin p).entry d = s.entry d := rfl

/-! ## `State.setSeq` -/

@[simp] theorem State.setSeq_table (q : Option SequenceContext) : (s.setSeq q).table = s.table := rfl
@[simp] theorem State.setSeq_pool (q : Option SequenceContext) : (s.setSeq q).pool = s.pool := rfl
@[simp] theorem State.setSeq_claims (q : Option SequenceContext) : (s.setSeq q).claims = s.claims := rfl
@[simp] theorem State.setSeq_line (q : Option SequenceContext) : (s.setSeq q).line = { s.line with seq := q } := rfl
@[simp] theorem State.setSeq_attention (q : Option SequenceContext) : (s.setSeq q).attention = s.attention := rfl
@[simp] theorem State.setSeq_host (q : Option SequenceContext) : (s.setSeq q).host = s.host := rfl
@[simp] theorem State.setSeq_orderCount (q : Option SequenceContext) : (s.setSeq q).orderCount = s.orderCount := rfl
@[simp] theorem State.setSeq_requestCount (q : Option SequenceContext) :
    (s.setSeq q).requestCount = s.requestCount := rfl
@[simp] theorem State.setSeq_pending (q : Option SequenceContext) : (s.setSeq q).pending = s.pending := rfl
@[simp] theorem State.setSeq_entry (q : Option SequenceContext) (d : EntryNo) : (s.setSeq q).entry d = s.entry d := rfl

/-! ## `State.setSlot` -/

@[simp] theorem State.setSlot_table (k : SlotNo) (x : Slot) : (s.setSlot k x).table = s.table := rfl
@[simp] theorem State.setSlot_pool (k : SlotNo) (x : Slot) : (s.setSlot k x).pool = s.pool := rfl
@[simp] theorem State.setSlot_claims (k : SlotNo) (x : Slot) : (s.setSlot k x).claims = s.claims.setSlot k x := rfl
@[simp] theorem State.setSlot_line (k : SlotNo) (x : Slot) : (s.setSlot k x).line = s.line := rfl
@[simp] theorem State.setSlot_attention (k : SlotNo) (x : Slot) : (s.setSlot k x).attention = s.attention := rfl
@[simp] theorem State.setSlot_host (k : SlotNo) (x : Slot) : (s.setSlot k x).host = s.host := rfl
@[simp] theorem State.setSlot_orderCount (k : SlotNo) (x : Slot) : (s.setSlot k x).orderCount = s.orderCount := rfl
@[simp] theorem State.setSlot_requestCount (k : SlotNo) (x : Slot) :
    (s.setSlot k x).requestCount = s.requestCount := rfl
@[simp] theorem State.setSlot_pending (k : SlotNo) (x : Slot) : (s.setSlot k x).pending = s.pending := rfl
@[simp] theorem State.setSlot_entry (k : SlotNo) (x : Slot) (d : EntryNo) : (s.setSlot k x).entry d = s.entry d := rfl

/-! ## `State.post` -/

@[simp] theorem State.post_table (e : EntryNo) (c : Cause) : (s.post e c).table = s.table := rfl
@[simp] theorem State.post_pool (e : EntryNo) (c : Cause) : (s.post e c).pool = s.pool := rfl
@[simp] theorem State.post_claims (e : EntryNo) (c : Cause) : (s.post e c).claims = s.claims := rfl
@[simp] theorem State.post_line (e : EntryNo) (c : Cause) : (s.post e c).line = s.line := rfl
@[simp] theorem State.post_attention (e : EntryNo) (c : Cause) :
    (s.post e c).attention = s.attention.post e c.set := rfl
@[simp] theorem State.post_host (e : EntryNo) (c : Cause) : (s.post e c).host = s.host := rfl
@[simp] theorem State.post_orderCount (e : EntryNo) (c : Cause) : (s.post e c).orderCount = s.orderCount := rfl
@[simp] theorem State.post_requestCount (e : EntryNo) (c : Cause) : (s.post e c).requestCount = s.requestCount := rfl
@[simp] theorem State.post_pending (e : EntryNo) (c : Cause) : (s.post e c).pending = s.pending := rfl
@[simp] theorem State.post_entry (e : EntryNo) (c : Cause) (d : EntryNo) : (s.post e c).entry d = s.entry d := rfl

/-! ## `State.setCondition` -/

@[simp] theorem State.setCondition_table (c : LineCondition) : (s.setCondition c).table = s.table := rfl
@[simp] theorem State.setCondition_pool (c : LineCondition) : (s.setCondition c).pool = s.pool := rfl
@[simp] theorem State.setCondition_claims (c : LineCondition) : (s.setCondition c).claims = s.claims := rfl
@[simp] theorem State.setCondition_line (c : LineCondition) : (s.setCondition c).line = s.line := rfl
@[simp] theorem State.setCondition_attention (c : LineCondition) :
    (s.setCondition c).attention = { s.attention with conditions := s.attention.conditions ||| c.set }.drive := rfl
@[simp] theorem State.setCondition_host (c : LineCondition) : (s.setCondition c).host = s.host := rfl
@[simp] theorem State.setCondition_orderCount (c : LineCondition) : (s.setCondition c).orderCount = s.orderCount := rfl
@[simp] theorem State.setCondition_requestCount (c : LineCondition) :
    (s.setCondition c).requestCount = s.requestCount := rfl
@[simp] theorem State.setCondition_pending (c : LineCondition) : (s.setCondition c).pending = s.pending := rfl
@[simp] theorem State.setCondition_entry (c : LineCondition) (d : EntryNo) :
    (s.setCondition c).entry d = s.entry d := rfl

/-! ## `State.clear` -/

@[simp] theorem State.clear_table (e : EntryNo) : (s.clear e).table = s.table := rfl
@[simp] theorem State.clear_pool (e : EntryNo) : (s.clear e).pool = s.pool := rfl
@[simp] theorem State.clear_claims (e : EntryNo) : (s.clear e).claims = s.claims := rfl
@[simp] theorem State.clear_line (e : EntryNo) : (s.clear e).line = s.line := rfl
@[simp] theorem State.clear_attention (e : EntryNo) : (s.clear e).attention = s.attention.clear e := rfl
@[simp] theorem State.clear_host (e : EntryNo) : (s.clear e).host = s.host := rfl
@[simp] theorem State.clear_orderCount (e : EntryNo) : (s.clear e).orderCount = s.orderCount := rfl
@[simp] theorem State.clear_requestCount (e : EntryNo) : (s.clear e).requestCount = s.requestCount := rfl
@[simp] theorem State.clear_pending (e : EntryNo) : (s.clear e).pending = s.pending := rfl
@[simp] theorem State.clear_entry (e : EntryNo) (d : EntryNo) : (s.clear e).entry d = s.entry d := rfl

/-! ## `State.setPosting` -/

@[simp] theorem State.setPosting_table (e : EntryNo) (p : PostingState) : (s.setPosting e p).table = s.table := rfl
@[simp] theorem State.setPosting_pool (e : EntryNo) (p : PostingState) : (s.setPosting e p).pool = s.pool := rfl
@[simp] theorem State.setPosting_claims (e : EntryNo) (p : PostingState) : (s.setPosting e p).claims = s.claims := rfl
@[simp] theorem State.setPosting_line (e : EntryNo) (p : PostingState) : (s.setPosting e p).line = s.line := rfl
@[simp] theorem State.setPosting_attention (e : EntryNo) (p : PostingState) :
    (s.setPosting e p).attention = s.attention.setRecord e { s.attention.record e with posting := p } := rfl
@[simp] theorem State.setPosting_host (e : EntryNo) (p : PostingState) : (s.setPosting e p).host = s.host := rfl
@[simp] theorem State.setPosting_orderCount (e : EntryNo) (p : PostingState) :
    (s.setPosting e p).orderCount = s.orderCount := rfl
@[simp] theorem State.setPosting_requestCount (e : EntryNo) (p : PostingState) :
    (s.setPosting e p).requestCount = s.requestCount := rfl
@[simp] theorem State.setPosting_pending (e : EntryNo) (p : PostingState) :
    (s.setPosting e p).pending = s.pending := rfl
@[simp] theorem State.setPosting_entry (e : EntryNo) (p : PostingState) (d : EntryNo) :
    (s.setPosting e p).entry d = s.entry d := rfl

/-! ## `State.setMask` -/

@[simp] theorem State.setMask_table (e : EntryNo) (m : CauseSet) : (s.setMask e m).table = s.table := rfl
@[simp] theorem State.setMask_pool (e : EntryNo) (m : CauseSet) : (s.setMask e m).pool = s.pool := rfl
@[simp] theorem State.setMask_claims (e : EntryNo) (m : CauseSet) : (s.setMask e m).claims = s.claims := rfl
@[simp] theorem State.setMask_line (e : EntryNo) (m : CauseSet) : (s.setMask e m).line = s.line := rfl
@[simp] theorem State.setMask_attention (e : EntryNo) (m : CauseSet) :
    (s.setMask e m).attention = s.attention.setRecord e { s.attention.record e with mask := m } := rfl
@[simp] theorem State.setMask_host (e : EntryNo) (m : CauseSet) : (s.setMask e m).host = s.host := rfl
@[simp] theorem State.setMask_orderCount (e : EntryNo) (m : CauseSet) : (s.setMask e m).orderCount = s.orderCount := rfl
@[simp] theorem State.setMask_requestCount (e : EntryNo) (m : CauseSet) :
    (s.setMask e m).requestCount = s.requestCount := rfl
@[simp] theorem State.setMask_pending (e : EntryNo) (m : CauseSet) : (s.setMask e m).pending = s.pending := rfl
@[simp] theorem State.setMask_entry (e : EntryNo) (m : CauseSet) (d : EntryNo) :
    (s.setMask e m).entry d = s.entry d := rfl

/-! ## `State.vacate` -/

@[simp] theorem State.vacate_table (e : EntryNo) : (s.vacate e).table = s.table.setEntry e Entry.vacant := rfl
@[simp] theorem State.vacate_pool (e : EntryNo) : (s.vacate e).pool = s.pool := rfl
@[simp] theorem State.vacate_claims (e : EntryNo) : (s.vacate e).claims = s.claims := rfl
@[simp] theorem State.vacate_line (e : EntryNo) : (s.vacate e).line = s.line := rfl
@[simp] theorem State.vacate_attention (e : EntryNo) : (s.vacate e).attention = s.attention := rfl
@[simp] theorem State.vacate_host (e : EntryNo) : (s.vacate e).host = s.host := rfl
@[simp] theorem State.vacate_orderCount (e : EntryNo) : (s.vacate e).orderCount = s.orderCount := rfl
@[simp] theorem State.vacate_requestCount (e : EntryNo) : (s.vacate e).requestCount = s.requestCount := rfl
@[simp] theorem State.vacate_pending (e : EntryNo) : (s.vacate e).pending = s.pending := rfl

/-! ## `State.complete` -/

@[simp] theorem State.complete_table (status : Status) (data : List Byte) :
    (s.complete status data).table = s.table := rfl
@[simp] theorem State.complete_pool (status : Status) (data : List Byte) : (s.complete status data).pool = s.pool := rfl
@[simp] theorem State.complete_claims (status : Status) (data : List Byte) :
    (s.complete status data).claims = s.claims := rfl
@[simp] theorem State.complete_line (status : Status) (data : List Byte) : (s.complete status data).line = s.line := rfl
@[simp] theorem State.complete_attention (status : Status) (data : List Byte) :
    (s.complete status data).attention = s.attention := rfl
@[simp] theorem State.complete_host (status : Status) (data : List Byte) :
    (s.complete status data).host = s.host.completed status data := rfl
@[simp] theorem State.complete_orderCount (status : Status) (data : List Byte) :
    (s.complete status data).orderCount = s.orderCount := rfl
@[simp] theorem State.complete_requestCount (status : Status) (data : List Byte) :
    (s.complete status data).requestCount = s.requestCount := rfl
@[simp] theorem State.complete_pending (status : Status) (data : List Byte) :
    (s.complete status data).pending = s.pending := rfl
@[simp] theorem State.complete_entry (status : Status) (data : List Byte) (d : EntryNo) :
    (s.complete status data).entry d = s.entry d := rfl

/-! ## `State.setWork` -/

@[simp] theorem State.setWork_table (w : Work) : (s.setWork w).table = s.table := rfl
@[simp] theorem State.setWork_pool (w : Work) : (s.setWork w).pool = s.pool := rfl
@[simp] theorem State.setWork_claims (w : Work) : (s.setWork w).claims = s.claims := rfl
@[simp] theorem State.setWork_line (w : Work) : (s.setWork w).line = s.line := rfl
@[simp] theorem State.setWork_attention (w : Work) : (s.setWork w).attention = s.attention := rfl
@[simp] theorem State.setWork_host (w : Work) : (s.setWork w).host = s.host.outstanding w := rfl
@[simp] theorem State.setWork_orderCount (w : Work) : (s.setWork w).orderCount = s.orderCount := rfl
@[simp] theorem State.setWork_requestCount (w : Work) : (s.setWork w).requestCount = s.requestCount := rfl
@[simp] theorem State.setWork_pending (w : Work) : (s.setWork w).pending = s.pending := rfl
@[simp] theorem State.setWork_entry (w : Work) (d : EntryNo) : (s.setWork w).entry d = s.entry d := rfl

/-! ## `State.endRunBefore` -/

@[simp] theorem State.endRunBefore_table : (s.endRunBefore).table = s.table := rfl
@[simp] theorem State.endRunBefore_pool : (s.endRunBefore).pool = s.pool := rfl
@[simp] theorem State.endRunBefore_claims : (s.endRunBefore).claims = s.claims := rfl
@[simp] theorem State.endRunBefore_line : (s.endRunBefore).line = { s.line with runBefore := false } := rfl
@[simp] theorem State.endRunBefore_attention : (s.endRunBefore).attention = s.attention := rfl
@[simp] theorem State.endRunBefore_host : (s.endRunBefore).host = s.host := rfl
@[simp] theorem State.endRunBefore_orderCount : (s.endRunBefore).orderCount = s.orderCount := rfl
@[simp] theorem State.endRunBefore_requestCount : (s.endRunBefore).requestCount = s.requestCount := rfl
@[simp] theorem State.endRunBefore_pending : (s.endRunBefore).pending = s.pending := rfl
@[simp] theorem State.endRunBefore_entry (d : EntryNo) : (s.endRunBefore).entry d = s.entry d := rfl

/-! ## `State.quitListen` -/

@[simp] theorem State.quitListen_table (m : LineMode) : (s.quitListen m).table = s.table := rfl
@[simp] theorem State.quitListen_pool (m : LineMode) : (s.quitListen m).pool = s.pool := rfl
@[simp] theorem State.quitListen_claims (m : LineMode) : (s.quitListen m).claims = s.claims := rfl
@[simp] theorem State.quitListen_line (m : LineMode) : (s.quitListen m).line = s.line.quit m := rfl
@[simp] theorem State.quitListen_attention (m : LineMode) : (s.quitListen m).attention = s.attention := rfl
@[simp] theorem State.quitListen_host (m : LineMode) : (s.quitListen m).host = s.host := rfl
@[simp] theorem State.quitListen_orderCount (m : LineMode) : (s.quitListen m).orderCount = s.orderCount := rfl
@[simp] theorem State.quitListen_requestCount (m : LineMode) : (s.quitListen m).requestCount = s.requestCount := rfl
@[simp] theorem State.quitListen_pending (m : LineMode) : (s.quitListen m).pending = s.pending := rfl
@[simp] theorem State.quitListen_entry (m : LineMode) (d : EntryNo) : (s.quitListen m).entry d = s.entry d := rfl

/-! ## `State.enterListen` -/

@[simp] theorem State.enterListen_table (p : Phase) : (s.enterListen p).table = s.table := rfl
@[simp] theorem State.enterListen_pool (p : Phase) : (s.enterListen p).pool = s.pool := rfl
@[simp] theorem State.enterListen_claims (p : Phase) : (s.enterListen p).claims = s.claims := rfl
@[simp] theorem State.enterListen_line (p : Phase) : (s.enterListen p).line = s.line.enter p := rfl
@[simp] theorem State.enterListen_attention (p : Phase) : (s.enterListen p).attention = s.attention := rfl
@[simp] theorem State.enterListen_host (p : Phase) : (s.enterListen p).host = s.host := rfl
@[simp] theorem State.enterListen_orderCount (p : Phase) : (s.enterListen p).orderCount = s.orderCount := rfl
@[simp] theorem State.enterListen_requestCount (p : Phase) : (s.enterListen p).requestCount = s.requestCount := rfl
@[simp] theorem State.enterListen_pending (p : Phase) : (s.enterListen p).pending = s.pending := rfl
@[simp] theorem State.enterListen_entry (p : Phase) (d : EntryNo) : (s.enterListen p).entry d = s.entry d := rfl

/-! ## `State.setReply` -/

@[simp] theorem State.setReply_table (bs : List Byte) : (s.setReply bs).table = s.table := rfl
@[simp] theorem State.setReply_pool (bs : List Byte) : (s.setReply bs).pool = s.pool := rfl
@[simp] theorem State.setReply_claims (bs : List Byte) : (s.setReply bs).claims = s.claims := rfl
@[simp] theorem State.setReply_line (bs : List Byte) :
    (s.setReply bs).line = { s.line with frame := { s.line.frame with reply := bs } } := rfl
@[simp] theorem State.setReply_attention (bs : List Byte) : (s.setReply bs).attention = s.attention := rfl
@[simp] theorem State.setReply_host (bs : List Byte) : (s.setReply bs).host = s.host := rfl
@[simp] theorem State.setReply_orderCount (bs : List Byte) : (s.setReply bs).orderCount = s.orderCount := rfl
@[simp] theorem State.setReply_requestCount (bs : List Byte) : (s.setReply bs).requestCount = s.requestCount := rfl
@[simp] theorem State.setReply_pending (bs : List Byte) : (s.setReply bs).pending = s.pending := rfl
@[simp] theorem State.setReply_entry (bs : List Byte) (d : EntryNo) : (s.setReply bs).entry d = s.entry d := rfl

/-! ## `State.setCode` -/

@[simp] theorem State.setCode_table (c : AnswerCode) : (s.setCode c).table = s.table := rfl
@[simp] theorem State.setCode_pool (c : AnswerCode) : (s.setCode c).pool = s.pool := rfl
@[simp] theorem State.setCode_claims (c : AnswerCode) : (s.setCode c).claims = s.claims := rfl
@[simp] theorem State.setCode_line (c : AnswerCode) :
    (s.setCode c).line = { s.line with frame := { s.line.frame with code := some c } } := rfl
@[simp] theorem State.setCode_attention (c : AnswerCode) : (s.setCode c).attention = s.attention := rfl
@[simp] theorem State.setCode_host (c : AnswerCode) : (s.setCode c).host = s.host := rfl
@[simp] theorem State.setCode_orderCount (c : AnswerCode) : (s.setCode c).orderCount = s.orderCount := rfl
@[simp] theorem State.setCode_requestCount (c : AnswerCode) : (s.setCode c).requestCount = s.requestCount := rfl
@[simp] theorem State.setCode_pending (c : AnswerCode) : (s.setCode c).pending = s.pending := rfl
@[simp] theorem State.setCode_entry (c : AnswerCode) (d : EntryNo) : (s.setCode c).entry d = s.entry d := rfl

/-! ## `State.setAsking` -/

@[simp] theorem State.setAsking_table (waiting : Bool) : (s.setAsking waiting).table = s.table := rfl
@[simp] theorem State.setAsking_pool (waiting : Bool) : (s.setAsking waiting).pool = s.pool := rfl
@[simp] theorem State.setAsking_claims (waiting : Bool) : (s.setAsking waiting).claims = s.claims := rfl
@[simp] theorem State.setAsking_line (waiting : Bool) :
    (s.setAsking waiting).line = { s.line with frame := { s.line.frame with asking := waiting } } := rfl
@[simp] theorem State.setAsking_attention (waiting : Bool) : (s.setAsking waiting).attention = s.attention := rfl
@[simp] theorem State.setAsking_host (waiting : Bool) : (s.setAsking waiting).host = s.host := rfl
@[simp] theorem State.setAsking_orderCount (waiting : Bool) : (s.setAsking waiting).orderCount = s.orderCount := rfl
@[simp] theorem State.setAsking_requestCount (waiting : Bool) :
    (s.setAsking waiting).requestCount = s.requestCount := rfl
@[simp] theorem State.setAsking_pending (waiting : Bool) : (s.setAsking waiting).pending = s.pending := rfl
@[simp] theorem State.setAsking_entry (waiting : Bool) (d : EntryNo) : (s.setAsking waiting).entry d = s.entry d := rfl

/-! ## `State.recordShifted` -/

@[simp] theorem State.recordShifted_table (count : Nat) : (s.recordShifted count).table = s.table := rfl
@[simp] theorem State.recordShifted_pool (count : Nat) : (s.recordShifted count).pool = s.pool := rfl
@[simp] theorem State.recordShifted_claims (count : Nat) : (s.recordShifted count).claims = s.claims := rfl
@[simp] theorem State.recordShifted_line (count : Nat) : (s.recordShifted count).line = s.line := rfl
@[simp] theorem State.recordShifted_attention (count : Nat) : (s.recordShifted count).attention = s.attention := rfl
@[simp] theorem State.recordShifted_host (count : Nat) :
    (s.recordShifted count).host = { s.host with shifted := s.host.shiftOut count } := rfl
@[simp] theorem State.recordShifted_orderCount (count : Nat) : (s.recordShifted count).orderCount = s.orderCount := rfl
@[simp] theorem State.recordShifted_requestCount (count : Nat) :
    (s.recordShifted count).requestCount = s.requestCount := rfl
@[simp] theorem State.recordShifted_pending (count : Nat) : (s.recordShifted count).pending = s.pending := rfl
@[simp] theorem State.recordShifted_entry (count : Nat) (d : EntryNo) :
    (s.recordShifted count).entry d = s.entry d := rfl

/-! ## `State.deselect` -/

@[simp] theorem State.deselect_table (p : PortState) (buffer : List Byte) : (s.deselect p buffer).table = s.table := rfl
@[simp] theorem State.deselect_pool (p : PortState) (buffer : List Byte) : (s.deselect p buffer).pool = s.pool := rfl
@[simp] theorem State.deselect_claims (p : PortState) (buffer : List Byte) :
    (s.deselect p buffer).claims = s.claims := rfl
@[simp] theorem State.deselect_line (p : PortState) (buffer : List Byte) : (s.deselect p buffer).line = s.line := rfl
@[simp] theorem State.deselect_attention (p : PortState) (buffer : List Byte) :
    (s.deselect p buffer).attention = s.attention := rfl
@[simp] theorem State.deselect_host (p : PortState) (buffer : List Byte) :
    (s.deselect p buffer).host = { s.host with csLow := false, sdo := none, state := p, buffer := buffer } := rfl
@[simp] theorem State.deselect_orderCount (p : PortState) (buffer : List Byte) :
    (s.deselect p buffer).orderCount = s.orderCount := rfl
@[simp] theorem State.deselect_requestCount (p : PortState) (buffer : List Byte) :
    (s.deselect p buffer).requestCount = s.requestCount := rfl
@[simp] theorem State.deselect_pending (p : PortState) (buffer : List Byte) :
    (s.deselect p buffer).pending = s.pending := rfl
@[simp] theorem State.deselect_entry (p : PortState) (buffer : List Byte) (d : EntryNo) :
    (s.deselect p buffer).entry d = s.entry d := rfl

/-! ## Updates inside a block -/

@[simp] theorem TableController.setEntry_index (t : TableController) (e : EntryNo) (x : Entry) :
    (t.setEntry e x).index = t.index := rfl
@[simp] theorem TableController.setEntry_inFlight (t : TableController) (e : EntryNo) (x : Entry) :
    (t.setEntry e x).inFlight = t.inFlight := rfl
@[simp] theorem TableController.setEntry_pin (t : TableController) (e : EntryNo) (x : Entry) :
    (t.setEntry e x).pin = t.pin := rfl
@[simp] theorem TableController.setIndex_entries (t : TableController) (h : Handle) (e : Option EntryNo) :
    (t.setIndex h e).entries = t.entries := rfl
@[simp] theorem TableController.setIndex_inFlight (t : TableController) (h : Handle) (e : Option EntryNo) :
    (t.setIndex h e).inFlight = t.inFlight := rfl
@[simp] theorem TableController.setIndex_pin (t : TableController) (h : Handle) (e : Option EntryNo) :
    (t.setIndex h e).pin = t.pin := rfl
@[simp] theorem ClaimTable.setSlot_lease (c : ClaimTable) (k : SlotNo) (x : Slot) :
    (c.setSlot k x).lease = c.lease := rfl
@[simp] theorem ClaimTable.freeClaim_lease (c : ClaimTable) (e : EntryNo) : (c.freeClaim e).lease = c.lease := rfl
@[simp] theorem AttentionUnit.setRecord_list (u : AttentionUnit) (e : EntryNo) (r : AttentionRecord) :
    (u.setRecord e r).list = u.list := rfl
@[simp] theorem AttentionUnit.setRecord_conditions (u : AttentionUnit) (e : EntryNo) (r : AttentionRecord) :
    (u.setRecord e r).conditions = u.conditions := rfl
@[simp] theorem AttentionUnit.setRecord_attn (u : AttentionUnit) (e : EntryNo) (r : AttentionRecord) :
    (u.setRecord e r).attn = u.attn := rfl
@[simp] theorem AttentionUnit.drive_records (u : AttentionUnit) : (u.drive).records = u.records := rfl
@[simp] theorem AttentionUnit.drive_list (u : AttentionUnit) : (u.drive).list = u.list := rfl
@[simp] theorem AttentionUnit.drive_conditions (u : AttentionUnit) : (u.drive).conditions = u.conditions := rfl
@[simp] theorem AttentionUnit.post_conditions (u : AttentionUnit) (e : EntryNo) (c : CauseSet) :
    (u.post e c).conditions = u.conditions := rfl
@[simp] theorem AttentionUnit.clear_conditions (u : AttentionUnit) (e : EntryNo) :
    (u.clear e).conditions = u.conditions := rfl
@[simp] theorem CellPool.release_bytes (p : CellPool) (cells : List CellNo) : (p.release cells).bytes = p.bytes := rfl
@[simp] theorem CellPool.release_free (p : CellPool) (cells : List CellNo) :
    (p.release cells).free = p.free ++ cells := rfl
@[simp] theorem AttentionUnit.drive_attn (u : AttentionUnit) :
    u.drive.attn = (!u.list.isEmpty || u.conditions != 0#8) := rfl
@[simp] theorem LineUnit.quit_mode (l : LineUnit) (m : LineMode) : (l.quit m).mode = m := rfl
@[simp] theorem LineUnit.quit_phase (l : LineUnit) (m : LineMode) : (l.quit m).phase = .waiting := rfl
@[simp] theorem LineUnit.quit_seq (l : LineUnit) (m : LineMode) : (l.quit m).seq = l.seq := rfl
@[simp] theorem LineUnit.quit_frame (l : LineUnit) (m : LineMode) : (l.quit m).frame = {} := rfl
@[simp] theorem LineUnit.quit_landing (l : LineUnit) (m : LineMode) : (l.quit m).landing = [] := rfl
@[simp] theorem LineUnit.enter_mode (l : LineUnit) (p : Phase) : (l.enter p).mode = .listen := rfl
@[simp] theorem LineUnit.enter_phase (l : LineUnit) (p : Phase) : (l.enter p).phase = p := rfl
@[simp] theorem LineUnit.enter_seq (l : LineUnit) (p : Phase) : (l.enter p).seq = none := rfl
@[simp] theorem LineUnit.enter_frame (l : LineUnit) (p : Phase) : (l.enter p).frame = {} := rfl

end Sys2Proof.Machine
end

