-- ==== Sys2Proof/Laws/Tables.lean ====
section
/-! SUPPORT. Reading a table after writing it: entries, the Handle Index, claim slots and attention records. -/

namespace Sys2Proof.Machine

/-! ## Reading a table through an update of its other fields -/

@[simp] theorem TableController.entry_eta (t : TableController) (i : Vector (Option EntryNo) 512) (f : Option EntryNo)
    (p : Option Pin) (e : EntryNo) : (⟨t.entries, i, f, p⟩ : TableController).entry e = t.entry e := rfl

@[simp] theorem TableController.lookup_eta (t : TableController) (es : Vector Entry 128) (f : Option EntryNo)
    (p : Option Pin) (h : Handle) : (⟨es, t.index, f, p⟩ : TableController).lookup h = t.lookup h := rfl

@[simp] theorem ClaimTable.slot_eta (c : ClaimTable) (lease : Nat) (k : SlotNo) :
    (⟨c.slots, lease⟩ : ClaimTable).slot k = c.slot k := rfl

@[simp] theorem AttentionUnit.record_eta (u : AttentionUnit) (l : List EntryNo) (c : BitVec 8) (a : Bool)
    (e : EntryNo) : (⟨u.records, l, c, a⟩ : AttentionUnit).record e = u.record e := rfl

/-! ## Entries and the Handle Index -/

theorem TableController.entry_setEntry (t : TableController) (e d : EntryNo) (x : Entry) :
    (t.setEntry e x).entry d = if d = e then x else t.entry d := by
  simp only [TableController.entry, TableController.setEntry, Vector.getElem_set, Fin.val_inj]
  split <;> split <;> simp_all

@[simp] theorem TableController.entry_setEntry_self (t : TableController) (e : EntryNo) (x : Entry) :
    (t.setEntry e x).entry e = x := by simp [TableController.entry_setEntry]

@[simp] theorem TableController.entry_setEntry_ne (t : TableController) {e d : EntryNo} (x : Entry) (h : d ≠ e) :
    (t.setEntry e x).entry d = t.entry d := by simp [TableController.entry_setEntry, h]

@[simp] theorem TableController.entry_setIndex (t : TableController) (h : Handle) (m : Option EntryNo) (d : EntryNo) :
    (t.setIndex h m).entry d = t.entry d := rfl

@[simp] theorem TableController.lookup_setEntry (t : TableController) (e : EntryNo) (x : Entry) (h : Handle) :
    (t.setEntry e x).lookup h = t.lookup h := rfl

theorem TableController.lookup_setIndex (t : TableController) (h g : Handle) (m : Option EntryNo) :
    (t.setIndex h m).lookup g = if g = h then m else t.lookup g := by
  simp only [TableController.lookup, TableController.setIndex, Vector.getElem_set, BitVec.toNat_inj]
  split <;> split <;> simp_all

@[simp] theorem TableController.lookup_setIndex_self (t : TableController) (h : Handle) (m : Option EntryNo) :
    (t.setIndex h m).lookup h = m := by simp [TableController.lookup_setIndex]

@[simp] theorem TableController.lookup_setIndex_ne (t : TableController) {h g : Handle} (m : Option EntryNo)
    (hne : g ≠ h) : (t.setIndex h m).lookup g = t.lookup g := by simp [TableController.lookup_setIndex, hne]

theorem State.entry_setEntry (s : State) (e d : EntryNo) (x : Entry) :
    (s.setEntry e x).entry d = if d = e then x else s.entry d := TableController.entry_setEntry s.table e d x

@[simp] theorem State.entry_setEntry_self (s : State) (e : EntryNo) (x : Entry) : (s.setEntry e x).entry e = x :=
  TableController.entry_setEntry_self s.table e x

@[simp] theorem State.entry_setEntry_ne (s : State) {e d : EntryNo} (x : Entry) (h : d ≠ e) :
    (s.setEntry e x).entry d = s.entry d := TableController.entry_setEntry_ne s.table x h

@[simp] theorem State.entry_vacate_self (s : State) (e : EntryNo) : (s.vacate e).entry e = Entry.vacant :=
  State.entry_setEntry_self s e _

@[simp] theorem State.entry_vacate_ne (s : State) {e d : EntryNo} (h : d ≠ e) : (s.vacate e).entry d = s.entry d :=
  State.entry_setEntry_ne s _ h

/-- Two tables with the same entries, index, mark and pin are one. -/
theorem TableController.ext_entry {t u : TableController} (he : ∀ e : EntryNo, t.entry e = u.entry e)
    (hi : t.index = u.index) (hf : t.inFlight = u.inFlight) (hp : t.pin = u.pin) : t = u := by
  obtain ⟨te, ti, tf, tp⟩ := t
  obtain ⟨ue, ui, uf, up⟩ := u
  have : te = ue := Vector.ext fun k hk => he ⟨k, hk⟩
  simp_all

/-! ## The lowest-numbered place -/

/-- `find?` over all the places gives the lowest-numbered one that passes. -/
theorem find_finRange_eq_some {n : Nat} (p : Fin n → Bool) (i : Fin n) :
    (List.finRange n).find? p = some i ↔ p i = true ∧ ∀ j : Fin n, j < i → p j = false := by
  rw [List.find?_eq_some_iff_getElem]
  constructor
  · rintro ⟨hp, k, hk, hki, hlt⟩
    simp only [List.getElem_finRange] at hki hlt
    subst hki
    refine ⟨hp, fun j hj => ?_⟩
    have := hlt j.val (Fin.lt_def.1 hj)
    simpa using this
  · rintro ⟨hp, hlt⟩
    refine ⟨hp, i.val, by simp, by simp, fun j hj => ?_⟩
    have := hlt ⟨j, by omega⟩ (by simpa [Fin.lt_def] using hj)
    simpa using this

theorem find_finRange_eq_none {n : Nat} (p : Fin n → Bool) :
    (List.finRange n).find? p = none ↔ ∀ j : Fin n, p j = false := by
  simp [List.find?_eq_none]

/-- The lowest-numbered VACANT entry (R16). -/
theorem TableController.firstVacant_eq_some (t : TableController) (e : EntryNo) :
    t.firstVacant = some e ↔
      (t.entry e).state = .vacant ∧ ∀ d : EntryNo, d < e → (t.entry d).state ≠ .vacant := by
  simp [TableController.firstVacant, find_finRange_eq_some]

theorem TableController.firstVacant_eq_none (t : TableController) :
    t.firstVacant = none ↔ ∀ e : EntryNo, (t.entry e).state ≠ .vacant := by
  simp [TableController.firstVacant]

/-! ## Claim slots -/

theorem ClaimTable.slot_setSlot (c : ClaimTable) (k j : SlotNo) (x : Slot) :
    (c.setSlot k x).slot j = if j = k then x else c.slot j := by
  simp only [ClaimTable.slot, ClaimTable.setSlot, Vector.getElem_set, Fin.val_inj]
  split <;> split <;> simp_all

@[simp] theorem ClaimTable.slot_setSlot_self (c : ClaimTable) (k : SlotNo) (x : Slot) : (c.setSlot k x).slot k = x := by
  simp [ClaimTable.slot_setSlot]

@[simp] theorem ClaimTable.slot_setSlot_ne (c : ClaimTable) {k j : SlotNo} (x : Slot) (h : j ≠ k) :
    (c.setSlot k x).slot j = c.slot j := by simp [ClaimTable.slot_setSlot, h]

@[simp] theorem ClaimTable.slot_freeClaim (c : ClaimTable) (e : EntryNo) (k : SlotNo) :
    (c.freeClaim e).slot k = if (c.slot k).names e = true then .free else c.slot k := by
  simp [ClaimTable.slot, ClaimTable.freeClaim, Vector.getElem_map]
  rfl

/-- The slot that names an entry, where no two do (R67). -/
theorem ClaimTable.slotOf_eq_some {c : ClaimTable} {e : EntryNo}
    (unique : ∀ j k : SlotNo, (c.slot j).names e = true → (c.slot k).names e = true → j = k) (k : SlotNo) :
    c.slotOf e = some k ↔ (c.slot k).names e = true := by
  rw [ClaimTable.slotOf, find_finRange_eq_some]
  refine ⟨fun h => h.1, fun h => ⟨h, fun j hj => ?_⟩⟩
  cases hn : (c.slot j).names e with
  | false => rfl
  | true => exact absurd (unique j k hn h) (Fin.ne_of_lt hj)

theorem ClaimTable.slotOf_eq_none (c : ClaimTable) (e : EntryNo) :
    c.slotOf e = none ↔ ∀ k : SlotNo, (c.slot k).names e = false := find_finRange_eq_none _

theorem ClaimTable.firstFree_eq_some (c : ClaimTable) (k : SlotNo) :
    c.firstFree = some k ↔ c.slot k = .free ∧ ∀ j : SlotNo, j < k → c.slot j ≠ .free := by
  simp [ClaimTable.firstFree, find_finRange_eq_some]

theorem ClaimTable.firstFree_eq_none (c : ClaimTable) :
    c.firstFree = none ↔ ∀ k : SlotNo, c.slot k ≠ .free := by
  simp [ClaimTable.firstFree]

theorem ClaimTable.reservedSlot_eq_none (c : ClaimTable) :
    c.reservedSlot = none ↔ ∀ k : SlotNo, (c.slot k).isReserved = false := find_finRange_eq_none _

theorem ClaimTable.reservedSlot_isReserved {c : ClaimTable} {k : SlotNo} (h : c.reservedSlot = some k) :
    (c.slot k).isReserved = true := ((find_finRange_eq_some _ _).1 h).1

/-- The claim on an entry, where no two slots name it (R67). -/
theorem ClaimTable.claimOf_eq {c : ClaimTable} {e : EntryNo}
    (unique : ∀ j k : SlotNo, (c.slot j).names e = true → (c.slot k).names e = true → j = k) {k : SlotNo}
    (h : (c.slot k).names e = true) : c.claimOf e = c.slot k := by
  simp [ClaimTable.claimOf, (ClaimTable.slotOf_eq_some unique k).2 h]

theorem ClaimTable.claimOf_free {c : ClaimTable} {e : EntryNo} (h : ∀ k : SlotNo, (c.slot k).names e = false) :
    c.claimOf e = .free := by simp [ClaimTable.claimOf, (ClaimTable.slotOf_eq_none c e).2 h]

/-- What a slot that names an entry can be (R67). -/
theorem Slot.names_cases {x : Slot} {e : EntryNo} (h : x.names e = true) :
    (∃ (t : Tag) (lease : Nat) (renewal : Bool), x = .reserved e t lease renewal) ∨
      (∃ (t : Tag) (lease : Nat), x = .heldLine e t lease) ∨ x = .heldHost e := by
  cases x <;> simp_all [Slot.names]

/-! ## Attention records -/

theorem AttentionUnit.record_setRecord (u : AttentionUnit) (e d : EntryNo) (r : AttentionRecord) :
    (u.setRecord e r).record d = if d = e then r else u.record d := by
  simp only [AttentionUnit.record, AttentionUnit.setRecord, Vector.getElem_set, Fin.val_inj]
  split <;> split <;> simp_all

@[simp] theorem AttentionUnit.record_setRecord_self (u : AttentionUnit) (e : EntryNo) (r : AttentionRecord) :
    (u.setRecord e r).record e = r := by simp [AttentionUnit.record_setRecord]

@[simp] theorem AttentionUnit.record_setRecord_ne (u : AttentionUnit) {e d : EntryNo} (r : AttentionRecord)
    (h : d ≠ e) : (u.setRecord e r).record d = u.record d := by simp [AttentionUnit.record_setRecord, h]

@[simp] theorem AttentionUnit.record_drive (u : AttentionUnit) (e : EntryNo) : u.drive.record e = u.record e := rfl

@[simp] theorem AttentionUnit.setRecord_record (u : AttentionUnit) (e : EntryNo) :
    u.setRecord e (u.record e) = u := by
  obtain ⟨r, l, c, a⟩ := u
  simp [AttentionUnit.setRecord, AttentionUnit.record]

end Sys2Proof.Machine
end

