-- ==== Sys2Proof/Laws/Cells.lean ====
section
/-! SUPPORT. Where the cells are: what one entry's change does to the cells of all copies, and what it means that each
cell is in one place (R28). -/

namespace Sys2Proof.Machine

/-- Changing a function at one place of a list without repeats changes a sum over the list by that place alone. -/
theorem sum_map_change {α : Type} [DecidableEq α] {l : List α} (nodup : l.Nodup) {e : α} (mem : e ∈ l) {f g : α → Nat}
    (other : ∀ d ∈ l, d ≠ e → f d = g d) : (l.map f).sum + g e = (l.map g).sum + f e := by
  induction l with
  | nil => cases mem
  | cons a l ih =>
    have nd := List.nodup_cons.1 nodup
    simp only [List.map_cons, List.sum_cons]
    by_cases ha : a = e
    · subst ha
      have : l.map f = l.map g := List.map_congr_left fun d hd =>
        other d (List.mem_cons_of_mem _ hd) fun h => nd.1 (h ▸ hd)
      rw [this]
      omega
    · have hm : e ∈ l := (List.mem_cons.1 mem).resolve_left (Ne.symm ha)
      have := ih nd.2 hm fun d hd => other d (List.mem_cons_of_mem _ hd)
      have := other a (List.mem_cons_self ..) ha
      omega

/-- How often a cell occurs in the copies of all entries. -/
theorem State.count_copyCells (s : State) (c : CellNo) :
    s.copyCells.count c = ((List.finRange 128).map fun e => (s.entry e).cells.count c).sum := by
  simp [State.copyCells, List.count_flatMap, Function.comp_def]

/-- Where two states differ in one entry alone, their copies differ in that entry's cells alone. -/
theorem State.count_copyCells_change {s t : State} {e : EntryNo} (other : ∀ d : EntryNo, d ≠ e → t.entry d = s.entry d)
    (c : CellNo) :
    t.copyCells.count c + (s.entry e).cells.count c = s.copyCells.count c + (t.entry e).cells.count c := by
  rw [State.count_copyCells, State.count_copyCells]
  exact sum_map_change (f := fun d => (t.entry d).cells.count c) (g := fun d => (s.entry d).cells.count c)
    (List.nodup_finRange 128) (List.mem_finRange e) fun d _ hd => by simp only [other d hd]

/-- Where two states hold the same cells in every entry, they hold the same cells. -/
theorem State.copyCells_congr {s t : State} (h : ∀ d : EntryNo, (t.entry d).cells = (s.entry d).cells) :
    t.copyCells = s.copyCells := by
  simp [State.copyCells, h]

/-- The cells of one entry are among those of all. -/
theorem State.count_cells_le (s : State) (e : EntryNo) (c : CellNo) :
    (s.entry e).cells.count c ≤ s.copyCells.count c := by
  rw [State.count_copyCells]
  exact List.single_le_sum (fun _ _ => Nat.zero_le _) _ (List.mem_map.2 ⟨e, List.mem_finRange e, rfl⟩)

/-- The free list has no repeats (R28). -/
theorem CellsOk.free_nodup {s : State} (h : CellsOk s) : s.pool.free.Nodup := by
  refine List.nodup_iff_count_le_one.2 fun c => ?_
  have := h c
  rw [List.count_append] at this
  omega

/-- The copies of one entry have no cell in common and none twice (R28, R33). -/
theorem CellsOk.cells_nodup {s : State} (h : CellsOk s) (e : EntryNo) : (s.entry e).cells.Nodup := by
  refine List.nodup_iff_count_le_one.2 fun c => ?_
  have := h c
  have := s.count_cells_le e c
  rw [List.count_append] at *
  omega

/-- A free cell is in no copy (R28). -/
theorem CellsOk.free_not_cell {s : State} (h : CellsOk s) {c : CellNo} (hc : c ∈ s.pool.free) (e : EntryNo) :
    c ∉ (s.entry e).cells := by
  intro he
  have h1 := List.count_pos_iff.2 hc
  have h2 := List.count_pos_iff.2 he
  have := h c
  have := s.count_cells_le e c
  rw [List.count_append] at *
  omega

/-- An entry's current copy is among its cells. -/
theorem Entry.current_sublist {x : Entry} {cells : List CellNo} (h : x.current = some cells) :
    cells.Sublist x.cells := by
  simp [Entry.cells, h, List.append_assoc]

/-- An entry's staged copy is among its cells. -/
theorem Entry.staged_sublist {x : Entry} {cells : List CellNo} (h : x.staged = some cells) :
    cells.Sublist x.cells := by
  simp only [Entry.cells, h, Option.getD_some]
  exact (List.sublist_append_right _ _).trans (List.sublist_append_left _ _)

/-- An entry's held copy is among its cells. -/
theorem Entry.held_sublist {x : Entry} {copy : HeldCopy} (h : x.held = some copy) :
    copy.cells.Sublist x.cells := by
  simp only [Entry.cells, h, Option.map_some, Option.getD_some]
  exact List.sublist_append_right _ _

end Sys2Proof.Machine
end

