-- ==== Sys2Proof/Laws/Ops.lean ====
section
/-! SUPPORT. One lemma for each shared operation, which says once what it can do: taking a host command, R19's checks,
posting and clearing, freeing copies, the pin, the sequence, the teardown of an entry, and a deferred idle expiry. -/

namespace Sys2Proof.Machine

/-! ## The Host Port -/

theorem State.replied_eq_complete (s : State) (status : Status) (data : List Byte) :
    s.replied status data = s.complete status data := rfl

@[simp] theorem HostPort.completed_outstanding (h : HostPort) (w : Work) (status : Status) (data : List Byte) :
    (h.outstanding w).completed status data = h.completed status data := by
  simp only [HostPort.completed, HostPort.outstanding]
  split <;> simp_all

@[simp] theorem HostPort.outstanding_outstanding (h : HostPort) (v w : Work) :
    (h.outstanding v).outstanding w = h.outstanding w := by
  simp only [HostPort.outstanding]
  split <;> simp_all

/-- A host command that its block takes (log 4): its effect, on a state whose Host Port completes as this one's does. -/
theorem State.runCommand_of_takes {s : State} {c : Instr} (h : s.Takes c) (effect : State → State) :
    ∃ x : HostPort, s.runCommand c effect = effect { s with host := x } ∧
      (∀ (status : Status) (data : List Byte), x.completed status data = s.host.completed status data) ∧
      ∀ w : Work, x.outstanding w = s.host.outstanding w := by
  unfold State.runCommand
  split
  · exact ⟨s.host, rfl, fun _ _ => rfl, fun _ => rfl⟩
  · next hw =>
    have hi : s.host.state = .idle := h.2.resolve_left hw
    simp only [hi, if_true, h.1]
    exact ⟨s.host.outstanding (.handed c), rfl, fun _ _ => by simp, fun _ => by simp⟩

/-- What the row of a host command can do (log 4, R173). -/
theorem State.runCommand_cases (s : State) (c : Instr) (effect : State → State) :
    (s.host.work = some (.handed c) ∧ s.runCommand c effect = effect s) ∨
      (s.host.state = .idle ∧ portRefusal c = none ∧
        s.runCommand c effect = effect (s.setWork (.handed c))) ∨
      (s.host.state = .idle ∧ ∃ status : Status, portRefusal c = some status ∧
        s.runCommand c effect = s.complete status []) ∨
      s.runCommand c effect = s := by
  unfold State.runCommand
  split
  · next h => exact .inl ⟨h, rfl⟩
  · split
    · next h =>
      split
      · next status hs => exact .inr (.inr (.inl ⟨h, status, hs, rfl⟩))
      · next hs => exact .inr (.inl ⟨h, hs, rfl⟩)
    · exact .inr (.inr (.inr rfl))

theorem State.withEntry_outOfRange {s : State} {late : Bool} {b : Byte} (h : 128 ≤ b.toNat)
    (effect : EntryNo → State) : s.withEntry late b effect = s.complete .badArgument [] := by
  simp [State.withEntry, State.checkEntry, Nat.not_lt.2 h]

theorem State.withEntry_vacant {s : State} {late : Bool} {b : Byte} (hb : b.toNat < 128)
    (hs : (s.entry ⟨b.toNat, hb⟩).state = .vacant) (effect : EntryNo → State) :
    s.withEntry late b effect = s.complete .noEntry [] := by
  simp [State.withEntry, State.checkEntry, hb, hs]

theorem State.withEntry_wrongState {s : State} {b : Byte} (hb : b.toNat < 128)
    (hs : (s.entry ⟨b.toNat, hb⟩).state = .retiring ∨ (s.entry ⟨b.toNat, hb⟩).state = .ended)
    (effect : EntryNo → State) : s.withEntry false b effect = s.complete .wrongState [] := by
  rcases hs with hs | hs <;> simp [State.withEntry, State.checkEntry, hb, hs]

theorem State.withEntry_working {s : State} {late : Bool} {b : Byte} (hb : b.toNat < 128)
    (hs : (s.entry ⟨b.toNat, hb⟩).state.working = true) (effect : EntryNo → State) :
    s.withEntry late b effect = effect ⟨b.toNat, hb⟩ := by
  unfold State.withEntry State.checkEntry
  simp only [hb, dite_true]
  cases h : (s.entry ⟨b.toNat, hb⟩).state <;> simp_all [EntryState.working]

theorem State.withEntry_late {s : State} {b : Byte} (hb : b.toNat < 128)
    (hs : (s.entry ⟨b.toNat, hb⟩).state ≠ .vacant) (effect : EntryNo → State) :
    s.withEntry true b effect = effect ⟨b.toNat, hb⟩ := by
  unfold State.withEntry State.checkEntry
  simp only [hb, dite_true]
  cases h : (s.entry ⟨b.toNat, hb⟩).state <;> simp_all

/-- What R19's checks can answer. -/
theorem State.withEntry_cases (s : State) (late : Bool) (b : Byte) (effect : EntryNo → State) :
    (∃ status : Status, s.withEntry late b effect = s.complete status [] ∧
        (status = .badArgument ∨ status = .noEntry ∨ status = .wrongState)) ∨
      ∃ h : b.toNat < 128, s.withEntry late b effect = effect ⟨b.toNat, h⟩ ∧
        ((s.entry ⟨b.toNat, h⟩).state.working = true ∨
          late = true ∧ ((s.entry ⟨b.toNat, h⟩).state = .retiring ∨ (s.entry ⟨b.toNat, h⟩).state = .ended)) := by
  by_cases hb : b.toNat < 128
  · by_cases hw : (s.entry ⟨b.toNat, hb⟩).state.working = true
    · exact .inr ⟨hb, State.withEntry_working hb hw effect, .inl hw⟩
    · by_cases hv : (s.entry ⟨b.toNat, hb⟩).state = .vacant
      · exact .inl ⟨_, State.withEntry_vacant hb hv effect, .inr (.inl rfl)⟩
      · have hs : (s.entry ⟨b.toNat, hb⟩).state = .retiring ∨ (s.entry ⟨b.toNat, hb⟩).state = .ended := by
          cases h : (s.entry ⟨b.toNat, hb⟩).state <;> simp_all [EntryState.working]
        cases late with
        | true => exact .inr ⟨hb, State.withEntry_late hb hv effect, .inr ⟨rfl, hs⟩⟩
        | false => exact .inl ⟨_, State.withEntry_wrongState hb hs effect, .inr (.inr rfl)⟩
  · exact .inl ⟨_, State.withEntry_outOfRange (Nat.le_of_not_lt hb) effect, .inl rfl⟩

/-- A record command that its block takes, by R19's checks: refused for its entry number, for a VACANT entry, or for an
entry in RETIRING or ENDED; else its effect on the entry. -/
theorem State.runRecord_of_takes {s : State} {c : Instr} (h : s.Takes c) (late : Bool) (b : Byte)
    (effect : State → EntryNo → State) :
    ∃ x : HostPort,
      (128 ≤ b.toNat → s.runCommand c (fun s => s.withEntry late b (effect s)) = s.replied .badArgument []) ∧
      (∀ hb : b.toNat < 128,
        ((s.entry ⟨b.toNat, hb⟩).state = .vacant →
          s.runCommand c (fun s => s.withEntry late b (effect s)) = s.replied .noEntry []) ∧
        (late = false → (s.entry ⟨b.toNat, hb⟩).state = .retiring ∨ (s.entry ⟨b.toNat, hb⟩).state = .ended →
          s.runCommand c (fun s => s.withEntry late b (effect s)) = s.replied .wrongState []) ∧
        ((s.entry ⟨b.toNat, hb⟩).state.working = true ∨ late = true ∧ (s.entry ⟨b.toNat, hb⟩).state ≠ .vacant →
          s.runCommand c (fun s => s.withEntry late b (effect s)) = effect { s with host := x } ⟨b.toNat, hb⟩)) ∧
      (∀ (status : Status) (data : List Byte), x.completed status data = s.host.completed status data) ∧
      ∀ w : Work, x.outstanding w = s.host.outstanding w := by
  obtain ⟨x, hx, hc, ho⟩ := State.runCommand_of_takes h fun s => s.withEntry late b (effect s)
  have hr : ∀ (status : Status) (data : List Byte),
      ({ s with host := x } : State).complete status data = s.replied status data := fun status data => by
    show ({ s with host := x.completed status data } : State) = { s with host := s.host.completed status data }
    rw [hc]
  refine ⟨x, fun hb => ?_, fun hb => ⟨fun hs => ?_, fun hl hs => ?_, fun hs => ?_⟩, hc, ho⟩
  · rw [hx, State.withEntry_outOfRange hb, hr]
  · rw [hx, State.withEntry_vacant (s := { s with host := x }) hb hs, hr]
  · subst hl
    rw [hx, State.withEntry_wrongState (s := { s with host := x }) hb hs, hr]
  · rw [hx]
    rcases hs with hs | ⟨rfl, hs⟩
    · exact State.withEntry_working (s := { s with host := x }) hb hs _
    · exact State.withEntry_late (s := { s with host := x }) hb hs _

/-! ## Posting and clearing (R156, R160) -/

@[simp] theorem AttentionUnit.post_record_ne (u : AttentionUnit) {e d : EntryNo} (c : CauseSet) (h : d ≠ e) :
    (u.post e c).record d = u.record d := by
  simp [AttentionUnit.post, AttentionUnit.record, AttentionUnit.drive, AttentionUnit.setRecord, Fin.val_inj,
    Ne.symm h]

@[simp] theorem AttentionUnit.post_record_self (u : AttentionUnit) (e : EntryNo) (c : CauseSet) :
    (u.post e c).record e = (u.record e).keep c := by
  simp [AttentionUnit.post, AttentionUnit.record, AttentionUnit.drive, AttentionUnit.setRecord]

theorem AttentionUnit.post_list (u : AttentionUnit) (e : EntryNo) (c : CauseSet) :
    (u.post e c).list =
      if becameNonempty (u.record e) ((u.record e).keep c) = true then u.list ++ [e] else u.list := rfl

theorem AttentionUnit.post_attn (u : AttentionUnit) (e : EntryNo) (c : CauseSet) :
    (u.post e c).attn = (!(u.post e c).list.isEmpty || u.conditions != 0#8) := rfl

/-- What keeping a posting does to a record, by its posting state (R155, R156). -/
theorem AttentionRecord.keep_eq (r : AttentionRecord) (c : CauseSet) :
    r.keep c = if r.posting = .closed then r else { r with causes := r.causes ||| (c &&& r.mask) } := by
  unfold AttentionRecord.keep
  cases h : r.posting <;> simp

@[simp] theorem AttentionRecord.keep_posting (r : AttentionRecord) (c : CauseSet) :
    (r.keep c).posting = r.posting := by unfold AttentionRecord.keep; split <;> rfl

@[simp] theorem AttentionRecord.keep_mask (r : AttentionRecord) (c : CauseSet) : (r.keep c).mask = r.mask := by
  unfold AttentionRecord.keep; split <;> rfl

@[simp] theorem AttentionRecord.keep_handle (r : AttentionRecord) (c : CauseSet) :
    (r.keep c).handle = r.handle := by unfold AttentionRecord.keep; split <;> rfl

/-- A posting against a CLOSED record is discarded (R155, R156). -/
theorem AttentionUnit.post_closed {u : AttentionUnit} {e : EntryNo} (h : (u.record e).posting = .closed)
    (attn : u.attn = (!u.list.isEmpty || u.conditions != 0#8)) (c : CauseSet) : u.post e c = u := by
  have hk : (u.record e).keep c = u.record e := by simp [AttentionRecord.keep_eq, h]
  have hb : becameNonempty (u.record e) (u.record e) = false := by
    simp [becameNonempty]
  unfold AttentionUnit.post
  simp only [hk, hb, AttentionUnit.setRecord_record]
  obtain ⟨r, l, cs, a⟩ := u
  simp_all [AttentionUnit.drive]

@[simp] theorem AttentionUnit.clear_record_self (u : AttentionUnit) (e : EntryNo) :
    (u.clear e).record e = { u.record e with posting := .closed, causes := 0#13 } := by
  simp [AttentionUnit.clear, AttentionUnit.record, AttentionUnit.drive, AttentionUnit.setRecord]

@[simp] theorem AttentionUnit.clear_record_ne (u : AttentionUnit) {e d : EntryNo} (h : d ≠ e) :
    (u.clear e).record d = u.record d := by
  simp [AttentionUnit.clear, AttentionUnit.record, AttentionUnit.drive, AttentionUnit.setRecord,
    Fin.val_inj, Ne.symm h]

theorem AttentionUnit.clear_list (u : AttentionUnit) (e : EntryNo) :
    (u.clear e).list = u.list.filter fun d => decide (d ≠ e) := rfl

theorem AttentionUnit.clear_attn (u : AttentionUnit) (e : EntryNo) :
    (u.clear e).attn = (!(u.clear e).list.isEmpty || u.conditions != 0#8) := rfl

/-! ## Freeing copies (R31) -/

@[simp] theorem TableController.setEntry_entry (t : TableController) (e : EntryNo) :
    t.setEntry e (t.entry e) = t := by
  obtain ⟨entries, i, f, p⟩ := t
  simp [TableController.setEntry, TableController.entry]

@[simp] theorem CellPool.release_nil (p : CellPool) : p.release [] = p := by simp [CellPool.release]

/-- Freeing a current copy, present or not (R31). -/
theorem State.freeCurrent_eq (s : State) (e : EntryNo) :
    s.freeCurrent e = { s with
      table := s.table.setEntry e { s.entry e with current := none }
      pool := s.pool.release ((s.entry e).current.getD []) } := by
  unfold State.freeCurrent
  split
  · next h =>
    have : ({ s.entry e with current := none } : Entry) = s.table.entry e := by
      rw [← h]; rfl
    simp [this, h]
  · next cells h => simp [h, State.setEntry]

/-- Freeing a staged copy, present or not (R31). -/
theorem State.freeStaged_eq (s : State) (e : EntryNo) :
    s.freeStaged e = { s with
      table := s.table.setEntry e { s.entry e with staged := none }
      pool := s.pool.release ((s.entry e).staged.getD []) } := by
  unfold State.freeStaged
  split
  · next h =>
    have : ({ s.entry e with staged := none } : Entry) = s.table.entry e := by
      rw [← h]; rfl
    simp [this, h]
  · next cells h => simp [h, State.setEntry]

/-- Freeing a held copy, present or not (R31). -/
theorem State.freeHeld_eq (s : State) (e : EntryNo) :
    s.freeHeld e = { s with
      table := s.table.setEntry e { s.entry e with held := none }
      pool := s.pool.release (((s.entry e).held.map HeldCopy.cells).getD []) } := by
  unfold State.freeHeld
  split
  · next h =>
    have : ({ s.entry e with held := none } : Entry) = s.table.entry e := by
      rw [← h]; rfl
    simp [this, h]
  · next copy h => simp [h, State.setEntry]

/-- Releasing the pin (R46): none; on a current copy, the mark alone goes; on a held copy, the copy is freed. -/
theorem State.releasePin_eq (s : State) :
    s.releasePin = match s.table.pin with
      | none => s
      | some ⟨_, .current, _⟩ => s.setPin none
      | some ⟨e, .held, _⟩ => (s.setPin none).freeHeld e := by
  unfold State.releasePin
  split
  · next h => rw [h]
  · next p h =>
    rw [h]
    obtain ⟨e, k, o⟩ := p
    cases k <;> rfl

/-- Releasing the pin touches the table and the free list alone. -/
theorem State.releasePin_frame (s : State) :
    s.releasePin = { s with table := s.releasePin.table, pool := { s.pool with free := s.releasePin.pool.free } } := by
  rw [State.releasePin_eq]
  split
  · rfl
  · rfl
  · simp only [State.freeHeld_eq]
    rfl

@[simp] theorem State.releasePin_pin (s : State) : s.releasePin.table.pin = none := by
  rw [State.releasePin_eq]
  split
  · assumption
  · rfl
  · simp only [State.freeHeld_eq]
    rfl

/-- Closing the open sequence (R105): the pin released, or the staged copy freed; no sequence is left. -/
theorem State.closeSequence_eq (s : State) :
    s.closeSequence = match s.line.seq with
      | none => s
      | some ⟨.serve, _, _, _, _, _⟩ => s.releasePin.setSeq none
      | some ⟨.assemble, _, e, _, _, _⟩ => (s.freeStaged e).setSeq none := by
  unfold State.closeSequence
  split
  · next h => rw [h]
  · next q h =>
    rw [h]
    obtain ⟨k, h', e, n, v, d⟩ := q
    cases k <;> rfl

/-- Closing a sequence touches the table, the free list and the sequence context alone. -/
theorem State.closeSequence_frame (s : State) :
    s.closeSequence = { s with
      table := s.closeSequence.table, pool := { s.pool with free := s.closeSequence.pool.free }
      line := { s.line with seq := none } } := by
  rw [State.closeSequence_eq]
  split
  · next h => simp [← h]
  · rw [State.releasePin_frame]
    rfl
  · simp only [State.freeStaged_eq]
    rfl

/-- Closing a sequence early (R114): it is closed and SEG_BROKEN posted against its entry. -/
theorem State.breakSequence_eq (s : State) :
    s.breakSequence = match s.line.seq with
      | none => s
      | some q => s.closeSequence.post q.entry .segBroken := rfl

theorem State.breakSequence_none {s : State} (h : s.line.seq = none) : s.breakSequence = s := by
  simp [State.breakSequence, h]

theorem State.closeSequence_none {s : State} (h : s.line.seq = none) : s.closeSequence = s := by
  simp [State.closeSequence, h]

/-! ## Teardown (R22) -/

/-- The pin after a teardown: gone when it was on the entry. -/
theorem State.dropPin_eq (s : State) (e : EntryNo) :
    s.dropPin e = s.setPin (s.table.pin.filter fun p => decide (p.entry ≠ e)) := by
  unfold State.dropPin
  split
  · next p h =>
    rw [h, Option.filter_some]
    by_cases hp : p.entry = e
    · simp only [hp, if_true, ne_eq, not_true, decide_false, Bool.false_eq_true, if_false]
    · simp only [hp, if_false, ne_eq, not_false_eq_true, decide_true, if_true, ← h]
      rfl
  · next h =>
    rw [h, Option.filter_none, ← h]
    rfl

/-- The sequence context after a teardown: CLOSED when it was the entry's. -/
theorem State.dropSequence_eq (s : State) (e : EntryNo) :
    s.dropSequence e = s.setSeq (s.line.seq.filter fun q => decide (q.entry ≠ e)) := by
  unfold State.dropSequence
  split
  · next q h =>
    rw [h, Option.filter_some]
    by_cases hq : q.entry = e
    · simp only [hq, if_true, ne_eq, not_true, decide_false, Bool.false_eq_true, if_false]
    · simp only [hq, if_false, ne_eq, not_false_eq_true, decide_true, if_true, ← h]
      rfl
  · next h =>
    rw [h, Option.filter_none, ← h]
    rfl

/-- A teardown, field by field (R22). -/
theorem State.teardown_eq (s : State) (e : EntryNo) :
    s.teardown e = { s with
      table :=
        { entries := (s.table.setEntry e { s.entry e with current := none, staged := none, held := none }).entries
          index := if s.table.lookup (s.entry e).handle = some e then (s.table.setIndex (s.entry e).handle none).index
            else s.table.index
          inFlight := s.table.inFlight
          pin := s.table.pin.filter fun p => decide (p.entry ≠ e) }
      pool := { s.pool with free := s.pool.free ++ (s.entry e).cells }
      claims := s.claims.freeClaim e
      line := { s.line with seq := s.line.seq.filter fun q => decide (q.entry ≠ e) } } := by
  unfold State.teardown
  simp only [State.dropPin_eq, State.dropSequence_eq, State.freeCurrent_eq, State.freeStaged_eq, State.freeHeld_eq, State.entry, State.setSeq, State.setPin,
    TableController.entry_setEntry_self, TableController.lookup_setEntry]
  have hh : ∀ (t : TableController) (x : Entry), (t.setEntry e x).setEntry e = t.setEntry e := by
    intro t x
    funext y
    simp [TableController.setEntry]
  simp only [hh, CellPool.release, Entry.cells, List.append_assoc]
  have hl : ∀ m, TableController.lookup { s.table with pin := m } (s.table.entry e).handle =
    s.table.lookup (s.table.entry e).handle := fun _ => rfl
  have he : ∀ m, TableController.entry { s.table with pin := m } e = s.table.entry e := fun _ => rfl
  simp only [hl, he]
  by_cases hi : s.table.lookup (s.table.entry e).handle = some e
  · simp only [hi, if_true]
    rfl
  · simp only [hi, if_false]
    rfl

end Sys2Proof.Machine
end

