-- ==== Sys2Proof/Laws/Frames.lean ====
section
/-! SUPPORT. The shared operations of the Line Unit, each said once: the settling of a deferred idle expiry, the new
frame, what a frame's end reports to the Claim Table, the decode of a good header, and the claim check. -/

namespace Sys2Proof.Machine

/-! ## Phases (R101, R150) -/

/-- A deferred idle expiry is settled, or nothing changes (R150). -/
theorem State.settleIdle_cases (s : State) :
    s.settleIdle = s ∨
      s.settleIdle = s.leaveListen .dormant ∧ s.line.mode = .listen ∧ s.line.idlePending = true ∧
        s.line.phase.quiet = true := by
  unfold State.settleIdle
  split
  · next h => exact .inr ⟨rfl, h⟩
  · exact .inl rfl

theorem State.settleIdle_of_not_pending {s : State} (h : s.line.idlePending = false) : s.settleIdle = s := by
  simp [State.settleIdle, h]

/-- A change of phase to WAITING, SKIPPING or RECOVERING with no idle expiry pending (R101). -/
theorem State.enterQuiet_of_not_pending {s : State} (h : s.line.idlePending = false) (p : Phase) :
    s.enterQuiet p = { s with line := { s.line with
      phase := p, assembling := false, edge := false, breakSeen := false, runBefore := false, collided := false
      txd := .released } } :=
  State.settleIdle_of_not_pending h

/-- Leaving LISTEN with no sequence open (R147). -/
theorem State.leaveListen_none {s : State} (h : s.line.seq = none) (m : LineMode) :
    s.leaveListen m = s.quitListen m := by rw [State.leaveListen, State.breakSequence_none h]

/-- After LISTEN has been left no sequence is open (R147). -/
@[simp] theorem State.leaveListen_seq (s : State) (m : LineMode) : (s.leaveListen m).line.seq = none := by
  cases h : s.line.seq with
  | none => simp [State.leaveListen, State.breakSequence, h]
  | some q =>
    have : s.closeSequence.line.seq = none := by rw [State.closeSequence_frame]
    simp [State.leaveListen, State.breakSequence, h, this]

/-! ## What closing a sequence leaves as it was -/

@[simp] theorem State.releasePin_line (s : State) : s.releasePin.line = s.line := by rw [State.releasePin_frame]
@[simp] theorem State.releasePin_claims (s : State) : s.releasePin.claims = s.claims := by rw [State.releasePin_frame]
@[simp] theorem State.releasePin_attention (s : State) : s.releasePin.attention = s.attention := by
  rw [State.releasePin_frame]
@[simp] theorem State.releasePin_host (s : State) : s.releasePin.host = s.host := by rw [State.releasePin_frame]
@[simp] theorem State.releasePin_bytes (s : State) : s.releasePin.pool.bytes = s.pool.bytes := by
  rw [State.releasePin_frame]
@[simp] theorem State.closeSequence_line (s : State) : s.closeSequence.line = { s.line with seq := none } := by
  rw [State.closeSequence_frame]
@[simp] theorem State.closeSequence_claims (s : State) : s.closeSequence.claims = s.claims := by
  rw [State.closeSequence_frame]
@[simp] theorem State.closeSequence_attention (s : State) : s.closeSequence.attention = s.attention := by
  rw [State.closeSequence_frame]
@[simp] theorem State.closeSequence_host (s : State) : s.closeSequence.host = s.host := by
  rw [State.closeSequence_frame]
@[simp] theorem State.closeSequence_bytes (s : State) : s.closeSequence.pool.bytes = s.pool.bytes := by
  rw [State.closeSequence_frame]
@[simp] theorem State.closeSequence_pending (s : State) : s.closeSequence.pending = s.pending := by
  rw [State.closeSequence_frame]
@[simp] theorem State.closeSequence_orderCount (s : State) : s.closeSequence.orderCount = s.orderCount := by
  rw [State.closeSequence_frame]

/-- Releasing the pin, said once in the terms of the statements (R46). -/
theorem State.releasePin_released (s : State) : PinReleased s s.releasePin := by
  refine ⟨s.releasePin_pin, fun h => ?_, fun p hp hk => ?_⟩
  · rw [State.releasePin_eq]
    split
    · exact ⟨rfl, rfl⟩
    · exact ⟨rfl, rfl⟩
    · next e o hp => simpa using h _ hp
  · obtain ⟨e, k, o⟩ := p
    subst hk
    rw [State.releasePin_eq, hp]
    simp only [State.freeHeld_eq, State.entry]
    exact ⟨by simp, fun d hd => by simp [hd], rfl⟩

/-- Releasing the pin leaves every entry as it was but for its held copy (R46). -/
theorem State.releasePin_entry (s : State) (d : EntryNo) :
    s.releasePin.entry d = { s.entry d with held := (s.releasePin.entry d).held } := by
  rw [State.releasePin_eq]
  split
  · rfl
  · rfl
  · next e o h =>
    simp only [State.freeHeld_eq, State.entry]
    by_cases hd : d = e
    · subst hd
      simp
    · simp [hd]

/-- Closing a sequence leaves every entry as it was but for its staged and held copies (R46, R53). -/
theorem State.closeSequence_entry (s : State) (d : EntryNo) :
    s.closeSequence.entry d =
      { s.entry d with staged := (s.closeSequence.entry d).staged, held := (s.closeSequence.entry d).held } := by
  rw [State.closeSequence_eq]
  split
  · rfl
  · have := s.releasePin_entry d
    simp only [State.setSeq_entry]
    rw [this]
  · next e _ _ _ _ =>
    simp only [State.freeStaged_eq, State.entry]
    by_cases hd : d = e
    · subst hd
      simp
    · simp [hd]

/-! ## Reports to the Claim Table (R70, R71, R76, R103) -/

/-- The report to the Claim Table touches the slots and the Attention Unit alone. -/
theorem State.reportToClaims_frame (s : State) (how : FrameEnd) (e : EntryNo) :
    s.reportToClaims how e = { s with
      claims := (s.reportToClaims how e).claims, attention := (s.reportToClaims how e).attention } := by
  unfold State.reportToClaims State.claimAnswered State.claimFailed State.releaseAnswered
  repeat' (first | rfl | split)

@[simp] theorem State.reportToClaims_entry (s : State) (how : FrameEnd) (e d : EntryNo) :
    (s.reportToClaims how e).entry d = s.entry d := by
  rw [State.reportToClaims_frame]
  rfl

@[simp] theorem State.reportToClaims_line (s : State) (how : FrameEnd) (e : EntryNo) :
    (s.reportToClaims how e).line = s.line := by rw [State.reportToClaims_frame]

@[simp] theorem State.reportToClaims_table (s : State) (how : FrameEnd) (e : EntryNo) :
    (s.reportToClaims how e).table = s.table := by rw [State.reportToClaims_frame]

@[simp] theorem State.reportToClaims_pool (s : State) (how : FrameEnd) (e : EntryNo) :
    (s.reportToClaims how e).pool = s.pool := by rw [State.reportToClaims_frame]

@[simp] theorem State.reportToClaims_host (s : State) (how : FrameEnd) (e : EntryNo) :
    (s.reportToClaims how e).host = s.host := by rw [State.reportToClaims_frame]

/-- The one RESERVED slot is the reservation of the frame in flight on its entry (R67, R70). -/
theorem ClaimsOk.reservedSlot_eq {s : State} (h : ClaimsOk s) {e : EntryNo} (flight : s.line.frame.entry = some e)
    {k : SlotNo} {t : Tag} {lease : Nat} {renewal : Bool} (hk : s.claims.slot k = .reserved e t lease renewal) :
    s.claims.reservedSlot = some k := by
  cases hr : s.claims.reservedSlot with
  | none =>
    have := (ClaimTable.reservedSlot_eq_none s.claims).1 hr k
    simp [hk, Slot.isReserved] at this
  | some j =>
    have hj := ClaimTable.reservedSlot_isReserved hr
    have hs := h.slots j
    cases hx : s.claims.slot j with
    | reserved d u l r =>
      rw [hx] at hs
      have hd : d = e := by
        have := hs.2.2.2.2.2.2.1
        simp_all
      have := h.unique e j k (by simp [hx, hd, Slot.names]) (by simp [hk, Slot.names])
      rw [this]
    | free => simp [hx, Slot.isReserved] at hj
    | heldLine _ _ _ => simp [hx, Slot.isReserved] at hj
    | heldHost _ => simp [hx, Slot.isReserved] at hj

/-! ## The claim check (R80) -/

/-- The verdict of the claim check on a line STORE or line RETIRE, by the slot that names the entry. -/
theorem ClaimsOk.blocksLine_eq {s : State} (h : ClaimsOk s) (e : EntryNo) (t : Tag) :
    s.claims.blocksLine e t = true ↔
      ∃ k : SlotNo, (s.claims.slot k).names e = true ∧ (∀ lease : Nat, s.claims.slot k ≠ .heldLine e t lease) ∧
        ∀ (lease : Nat) (renewal : Bool), s.claims.slot k ≠ .reserved e t lease renewal := by
  constructor
  · intro hb
    cases ho : s.claims.slotOf e with
    | none => simp [ClaimTable.blocksLine, ClaimTable.claimOf, ho] at hb
    | some k =>
      have hn := (ClaimTable.slotOf_eq_some (h.unique e) k).1 ho
      refine ⟨k, hn, fun lease hl => ?_, fun lease renewal hl => ?_⟩ <;>
        simp [ClaimTable.blocksLine, ClaimTable.claimOf, ho, hl] at hb
  · rintro ⟨k, hn, hl, hr⟩
    rw [ClaimTable.blocksLine, ClaimTable.claimOf_eq (h.unique e) hn]
    rcases Slot.names_cases hn with ⟨u, l, r, hx⟩ | ⟨u, l, hx⟩ | hx
    · have : u ≠ t := fun hu => hr l r (hu ▸ hx)
      simp [hx, this]
    · have : u ≠ t := fun hu => hl l (hu ▸ hx)
      simp [hx, this]
    · simp [hx]

/-- The verdict of the claim check on a COMMIT (R38, R80). -/
theorem ClaimsOk.blocksCommit_eq {s : State} (h : ClaimsOk s) (e : EntryNo) :
    s.claims.blocksCommit e = true ↔ ∃ k : SlotNo, (s.claims.slot k).lineClaims e = true := by
  constructor
  · intro hb
    cases ho : s.claims.slotOf e with
    | none => simp [ClaimTable.blocksCommit, ClaimTable.claimOf, ho] at hb
    | some k =>
      have hn := (ClaimTable.slotOf_eq_some (h.unique e) k).1 ho
      refine ⟨k, ?_⟩
      rcases Slot.names_cases hn with ⟨u, l, r, hx⟩ | ⟨u, l, hx⟩ | hx
      · simp [hx, Slot.lineClaims]
      · simp [hx, Slot.lineClaims]
      · simp [ClaimTable.blocksCommit, ClaimTable.claimOf, ho, hx] at hb
  · rintro ⟨k, hk⟩
    have hn : (s.claims.slot k).names e = true := by
      cases hx : s.claims.slot k <;> simp_all [Slot.lineClaims, Slot.names]
    rw [ClaimTable.blocksCommit, ClaimTable.claimOf_eq (h.unique e) hn]
    cases hx : s.claims.slot k <;> simp_all [Slot.lineClaims]

/-! ## Headers (R93 to R97) -/

@[simp] theorem Action.ofCode_code (a : Action) : Action.ofCode a.code = some a := by cases a <;> rfl

/-- The HC of a header whose action is one of the six is decoded by its three fields, given that its bytes give them
back (R93, R94). -/
theorem State.headerCharacter_of_awaitsCheck {s : State} {h : Handle} {a : Action} {t : Tag}
    (w : s.awaitsCheck h a.code t)
    (back : headerHandle (encodeH1 h) (encodeH2 h a.code t) = h ∧ headerAction (encodeH2 h a.code t) = a.code ∧
      headerTag (encodeH2 h a.code t) = t) :
    exec (.headerCharacter s.line.check false) s = .next (s.decodeAction h a t) := by
  obtain ⟨hm, hp, hh, _⟩ := w
  simp [exec, execHeaderCharacter, hm, hp, State.headerByte, hh, State.decodeHeader, back]

/-- Closing the open sequence, said once in the terms of the statements (R105, step 1). -/
theorem State.closeSequence_closed (s : State) : SequenceClosed s s.closeSequence := by
  refine ⟨⟨fun h => ?_, fun q hq => ⟨fun hk => ?_, fun hk => ?_⟩⟩, ?_⟩
  · simp [State.closeSequence_none h]
  · have hc : s.closeSequence = s.releasePin.setSeq none := by simp [State.closeSequence, hq, hk]
    rw [hc]
    exact s.releasePin_released
  · have hc : s.closeSequence = (s.freeStaged q.entry).setSeq none := by simp [State.closeSequence, hq, hk]
    rw [hc]
    simp only [State.freeStaged_eq, State.entry]
    refine ⟨rfl, by simp, fun d hd => by simp [hd], rfl⟩
  · rw [State.closeSequence_frame]
    congr 1
    rw [State.closeSequence_eq]
    split
    · rfl
    · rw [State.releasePin_eq]
      split <;> first | rfl | (simp only [State.freeHeld_eq]; rfl)
    · simp only [State.freeStaged_eq]
      rfl

/-- What a header makes of the open sequence, said once in the terms of the statements (R104, R105). -/
theorem State.meetSequence_meets (s : State) (h : Handle) (a : Action) (t : Tag) :
    MeetsSequence s h a t (s.meetSequence (s.line.isContinuation h a t))
      (match s.line.brokenBy (s.line.isContinuation h a t) with
        | none => s.attention
        | some e => s.attention.post e (1#13 <<< 7)) := by
  cases hq : s.line.seq with
  | none =>
    refine .inr ⟨fun r hr => by simp [hq] at hr, ?_, ?_⟩
    · simpa [State.meetSequence, LineUnit.isContinuation, hq] using s.closeSequence_closed
    · simp [State.brokenPosting, LineUnit.brokenBy, LineUnit.isContinuation, hq]
  | some q =>
    by_cases hc : a = .fetch ∧ h = q.handle ∧ t.toNat = q.next
    · obtain ⟨ha, hh, ht⟩ := hc
      refine .inl ⟨q, hq, ha, hh.symm, ht.symm, ?_, ?_⟩
      · simp [State.meetSequence, LineUnit.isContinuation, hq, ha, hh, ht, State.setSeq]
      · simp [LineUnit.brokenBy, LineUnit.isContinuation, hq, ha, hh, ht]
    · refine .inr ⟨fun r hr hx => hc ?_, ?_, ?_⟩
      · obtain rfl : q = r := by simpa [hq] using hr
        exact ⟨hx.1, hx.2.1.symm, hx.2.2.symm⟩
      · simpa [State.meetSequence, LineUnit.isContinuation, hq, hc] using s.closeSequence_closed
      · simp [State.brokenPosting, LineUnit.brokenBy, LineUnit.isContinuation, hq, hc]

/-! ## The request for the answer (R66, R98, R108) -/

/-- With no request waiting there is none to take. -/
@[simp] theorem State.serveRequest_of_not_asking {s : State} (h : s.line.frame.asking = false) : s.serveRequest = s := by
  simp [State.serveRequest, h]

theorem State.serveRequest_of_not_space {s : State} (h : s.line.phase ≠ .space) : s.serveRequest = s := by
  simp [State.serveRequest, h]

/-- A frame's end with no request waiting is its reports alone (R103). -/
theorem State.frameEnd_of_not_asking {s : State} (h : s.line.frame.asking = false) (how : FrameEnd) :
    s.frameEnd how = s.reportEnd how := by rw [State.frameEnd, State.serveRequest_of_not_asking h]

theorem State.frameEnd_of_not_space {s : State} (h : s.line.phase ≠ .space) (how : FrameEnd) :
    s.frameEnd how = s.reportEnd how := by rw [State.frameEnd, State.serveRequest_of_not_space h]

/-- A request taken touches the pin, the slots, the postings and the frame context alone. -/
theorem State.serveRequest_frame (s : State) :
    s.serveRequest = { s with
      table := { s.table with pin := s.serveRequest.table.pin }
      claims := { s.claims with slots := s.serveRequest.claims.slots }
      attention := s.serveRequest.attention
      line := { s.line with frame := s.serveRequest.line.frame } } := by
  unfold State.serveRequest State.answerRequest State.placePin State.decideClaim ClaimTable.decideClaim
  repeat' (first | rfl | split)

/-- A frame that is answered or received, and whose header meets no open sequence (R105). -/
theorem State.decodeAction_none {s : State} (hs : s.line.seq = none) (h : Handle) (a : Action) (t : Tag) :
    s.decodeAction h a t =
      (let r := { s with line := { s.line with
        frame := FrameContext.atHeader h a t (s.table.lookup h) ((s.table.lookup h).map fun e => (s.entry e).found) } }
      match choosePath (s.table.lookup h) ((s.table.lookup h).map fun e => (s.entry e).found) a t false with
      | .skip none => r.enterQuiet .skipping
      | .skip (some (e, c)) => (r.post e c).enterQuiet .skipping
      | .answer e n => (r.startFrame .space e n).enterSpace e a t
      | .receive e n =>
        { r.startFrame .receiving e n with
          line := { (r.startFrame .receiving e n).line with landing := [], startSeen := false, edge := false } }) := by
  simp only [State.decodeAction, LineUnit.isContinuation, hs, State.meetSequence, LineUnit.brokenBy, Option.map_none,
    State.closeSequence_none hs, Bool.false_eq_true, if_false, State.postAt]
  rfl

end Sys2Proof.Machine
end

