-- ==== Sys2Proof/Laws/Memory.lean ====
section
/-! SUPPORT. The bytes of the Cell Pool: read after write, the canonical form, and what writing part of a copy does. -/

namespace Sys2Proof.Machine

/-! ## The canonical form -/

/-- Every address in a canonical tail lies above the head's. -/
theorem Memory.wf_tail {a : Nat} {v : Byte} {m : Memory} (h : Memory.wf ((a, v) :: m) = true) :
    v ≠ Memory.unlisted ∧ Memory.wf m = true ∧ ∀ c ∈ m, a < c.1 := by
  induction m generalizing a v with
  | nil => simp_all [Memory.wf]
  | cons c rest ih =>
    obtain ⟨b, w⟩ := c
    simp only [Memory.wf, Bool.and_eq_true, bne_iff_ne, decide_eq_true_eq] at h
    obtain ⟨⟨hv, hab⟩, hr⟩ := h
    refine ⟨hv, hr, fun c hc => ?_⟩
    rcases List.mem_cons.1 hc with rfl | hc
    · exact hab
    · exact Nat.lt_trans hab ((ih hr).2.2 c hc)

theorem Memory.wf_cons {a : Nat} {v : Byte} {m : Memory} (hv : v ≠ Memory.unlisted) (hm : Memory.wf m = true)
    (h : ∀ c ∈ m, a < c.1) : Memory.wf ((a, v) :: m) = true := by
  cases m with
  | nil => simpa [Memory.wf] using hv
  | cons c rest =>
    have := h c (by simp)
    simp_all [Memory.wf]

theorem Memory.read_of_lt {a : Nat} {m : Memory} (h : ∀ c ∈ m, a < c.1) : Memory.read m a = Memory.unlisted := by
  induction m with
  | nil => rfl
  | cons c rest ih =>
    have hc := h c (by simp)
    simp [Memory.read, ih fun d hd => h d (by simp [hd]), Nat.ne_of_gt hc]

/-- A write lists no address but those listed before and its own. -/
theorem Memory.mem_write {a : Nat} {v : Byte} {m : Memory} {c : Host.Cell} (h : c ∈ Memory.write m a v) :
    c ∈ m ∨ c = (a, v) := by
  induction m with
  | nil =>
    simp only [Memory.write] at h
    split at h <;> simp_all
  | cons d rest ih =>
    simp only [Memory.write] at h
    repeat' split at h
    all_goals simp_all
    all_goals grind

/-- A write keeps the canonical form. -/
theorem Memory.wf_write {a : Nat} {v : Byte} {m : Memory} (h : Memory.wf m = true) :
    Memory.wf (Memory.write m a v) = true := by
  induction m with
  | nil =>
    simp only [Memory.write]
    split
    · rfl
    · simpa [Memory.wf]
  | cons d rest ih =>
    obtain ⟨b, w⟩ := d
    obtain ⟨hw, hr, hlt⟩ := Memory.wf_tail h
    simp only [Memory.write]
    split
    · next hab =>
      split
      · exact h
      · next hv =>
        refine Memory.wf_cons hv h fun c hc => ?_
        rcases List.mem_cons.1 hc with rfl | hc
        · exact hab
        · exact Nat.lt_trans hab (hlt c hc)
    · split
      · next _ hab =>
        split
        · exact hr
        · next hv => exact Memory.wf_cons hv hr (hab ▸ hlt)
      · next h1 h2 =>
        refine Memory.wf_cons hw (ih hr) fun c hc => ?_
        rcases Memory.mem_write hc with hc | rfl
        · exact hlt c hc
        · show b < a
          omega

/-- A read after a write gives the byte written at its address, and what was there before at every other. -/
theorem Memory.read_write {a : Nat} {v : Byte} {m : Memory} (h : Memory.wf m = true) (x : Nat) :
    Memory.read (Memory.write m a v) x = if x = a then v else Memory.read m x := by
  induction m with
  | nil =>
    simp only [Memory.write]
    split
    · next hv =>
      split <;> simp [Memory.read, hv]
    · by_cases hx : x = a
      · simp [Memory.read, hx]
      · simp [Memory.read, hx, Ne.symm hx]
  | cons d rest ih =>
    obtain ⟨b, w⟩ := d
    obtain ⟨hw, hr, hlt⟩ := Memory.wf_tail h
    simp only [Memory.write]
    split
    · next hab =>
      have hall : ∀ c ∈ (b, w) :: rest, a < c.1 := fun c hc => by
        rcases List.mem_cons.1 hc with rfl | hc
        · exact hab
        · exact Nat.lt_trans hab (hlt c hc)
      split
      · next hv =>
        by_cases hx : x = a
        · subst hx
          simp [Memory.read_of_lt hall, hv]
        · simp [hx]
      · by_cases hx : x = a
        · subst hx
          simp [Memory.read]
        · simp [Memory.read, hx, Ne.symm hx]
    · split
      · next _ hab =>
        subst hab
        split
        · next hv =>
          by_cases hx : x = a
          · subst hx
            simp [Memory.read_of_lt hlt, hv]
          · simp [Memory.read, hx, Ne.symm hx]
        · by_cases hx : x = a
          · subst hx
            simp [Memory.read]
          · simp [Memory.read, hx, Ne.symm hx]
      · next h1 h2 =>
        by_cases hx : b = x
        · subst hx
          simp [Memory.read, Ne.symm h2]
        · simp [Memory.read, hx, ih hr]

/-! ## Copies -/

@[simp] theorem CellPool.poke_free (p : CellPool) (cells : List CellNo) (o : Nat) (b : Byte) :
    (p.poke cells o b).free = p.free := by
  unfold CellPool.poke
  split <;> rfl

@[simp] theorem CellPool.writeRecord_free (p : CellPool) (cells : List CellNo) (o : Nat) (bs : List Byte) :
    (CellPool.writeRecord cells p o bs).free = p.free := by
  induction bs generalizing p o with
  | nil => rfl
  | cons b bs ih => simp [CellPool.writeRecord, ih]

theorem CellPool.wf_poke {p : CellPool} (h : Memory.wf p.bytes = true) (cells : List CellNo) (o : Nat) (b : Byte) :
    Memory.wf (p.poke cells o b).bytes = true := by
  unfold CellPool.poke
  split
  · exact Memory.wf_write h
  · exact h

/-- Writing part of a copy keeps the canonical form. -/
theorem CellPool.wf_writeRecord {p : CellPool} (h : Memory.wf p.bytes = true) (cells : List CellNo) (o : Nat)
    (bs : List Byte) : Memory.wf (CellPool.writeRecord cells p o bs).bytes = true := by
  induction bs generalizing p o with
  | nil => exact h
  | cons b bs ih => exact ih (CellPool.wf_poke h cells o b) (o + 1)

theorem CellPool.wf_zero {p : CellPool} (h : Memory.wf p.bytes = true) (cells : List CellNo) :
    Memory.wf (p.zero cells).bytes = true := CellPool.wf_writeRecord h cells 0 _

theorem CellPool.wf_copyFrom {p : CellPool} (h : Memory.wf p.bytes = true) (source target : List CellNo) :
    Memory.wf (p.copyFrom source target).bytes = true := CellPool.wf_writeRecord h target 0 _

@[simp] theorem CellPool.zero_free (p : CellPool) (cells : List CellNo) : (p.zero cells).free = p.free := by
  simp [CellPool.zero]

@[simp] theorem CellPool.copyFrom_free (p : CellPool) (source target : List CellNo) :
    (p.copyFrom source target).free = p.free := by simp [CellPool.copyFrom]

/-- Where a byte of a copy lies, within the copy. -/
theorem recordAddress_eq {cells : List CellNo} {o : Nat} (h : o < 16 * cells.length) :
    recordAddress cells o =
      some (16 * (cells[o / 16]'(by omega)).val + o % 16) := by
  have h2 : o / 16 < cells.length := by omega
  simp [recordAddress, Config.cellBytes, cellAddress, List.getElem?_eq_getElem h2]

theorem recordAddress_none {cells : List CellNo} {o : Nat} (h : 16 * cells.length ≤ o) :
    recordAddress cells o = none := by
  have h2 : cells.length ≤ o / 16 := by omega
  simp [recordAddress, Config.cellBytes, List.getElem?_eq_none h2]

/-- A byte of a copy lies in one of the copy's cells. -/
theorem recordAddress_mem {cells : List CellNo} {o a : Nat} (h : recordAddress cells o = some a) :
    ∃ c ∈ cells, a / 16 = c.val := by
  by_cases ho : o < 16 * cells.length
  · rw [recordAddress_eq ho] at h
    refine ⟨cells[o / 16]'(by omega), List.getElem_mem _, ?_⟩
    have := Option.some.inj h
    omega
  · rw [recordAddress_none (by omega)] at h
    cases h

/-- Distinct bytes of a copy with no repeated cell lie at distinct addresses. -/
theorem recordAddress_inj {cells : List CellNo} (nodup : cells.Nodup) {o x a : Nat} (ho : recordAddress cells o = some a)
    (hx : recordAddress cells x = some a) : o = x := by
  have h1 : o < 16 * cells.length := by
    by_cases h : o < 16 * cells.length
    · exact h
    · rw [recordAddress_none (by omega)] at ho
      cases ho
  have h2 : x < 16 * cells.length := by
    by_cases h : x < 16 * cells.length
    · exact h
    · rw [recordAddress_none (by omega)] at hx
      cases hx
  rw [recordAddress_eq h1] at ho
  rw [recordAddress_eq h2] at hx
  have e1 := Option.some.inj ho
  have e2 := Option.some.inj hx
  have hc : (cells[o / 16]'(by omega)).val = (cells[x / 16]'(by omega)).val := by omega
  have := (nodup.getElem_inj_iff (hi := by omega) (hj := by omega)).1 (Fin.ext hc)
  omega

/-- An address that no byte written lies at reads as before. -/
theorem CellPool.read_writeRecord_other {p : CellPool} (h : Memory.wf p.bytes = true) {cells : List CellNo} {o : Nat}
    {bs : List Byte} {a : Nat} (ha : ∀ x : Nat, o ≤ x → x < o + bs.length → recordAddress cells x ≠ some a) :
    Memory.read (CellPool.writeRecord cells p o bs).bytes a = Memory.read p.bytes a := by
  induction bs generalizing p o with
  | nil => rfl
  | cons b bs ih =>
    rw [CellPool.writeRecord, ih (CellPool.wf_poke h cells o b)
      (fun x h1 h2 => ha x (by omega) (by simp only [List.length_cons]; omega))]
    have := ha o (Nat.le_refl o) (by simp only [List.length_cons]; omega)
    unfold CellPool.poke
    split
    · next b' hb =>
      rw [Memory.read_write h, if_neg]
      rintro rfl
      exact this hb
    · rfl

/-- A byte of a copy after part of that copy is written: the byte written there, or what it was. -/
theorem CellPool.peek_writeRecord {p : CellPool} (h : Memory.wf p.bytes = true) {cells : List CellNo}
    (nodup : cells.Nodup) {o : Nat} {bs : List Byte} {x : Nat} (hx : x < 16 * cells.length) :
    (CellPool.writeRecord cells p o bs).peek cells x =
      if o ≤ x ∧ x < o + bs.length then bs.getD (x - o) 0x00#8 else p.peek cells x := by
  induction bs generalizing p o with
  | nil => simp [CellPool.writeRecord]
  | cons b bs ih =>
    rw [CellPool.writeRecord, ih (CellPool.wf_poke h cells o b)]
    have hpeek : (p.poke cells o b).peek cells x = if x = o then b else p.peek cells x := by
      unfold CellPool.poke CellPool.peek
      rw [recordAddress_eq hx]
      dsimp only
      split
      · next a ha =>
        rw [Memory.read_write h]
        by_cases hxo : x = o
        · subst hxo
          rw [recordAddress_eq hx] at ha
          simp [Option.some.inj ha]
        · rw [if_neg hxo, if_neg]
          intro heq
          exact hxo (recordAddress_inj nodup (by rw [recordAddress_eq hx, heq]) ha)
      · next hn =>
        rw [if_neg]
        rintro rfl
        rw [recordAddress_eq hx] at hn
        cases hn
    rw [hpeek]
    simp only [List.length_cons]
    by_cases h1 : x = o
    · subst h1
      rw [if_neg (by omega), if_pos rfl, if_pos (by omega)]
      simp
    · rw [if_neg h1]
      by_cases h2 : o + 1 ≤ x ∧ x < o + 1 + bs.length
      · rw [if_pos h2, if_pos (by omega)]
        have : x - o = (x - (o + 1)) + 1 := by omega
        simp [this]
      · rw [if_neg h2, if_neg (by omega)]

/-- A byte of a copy reads as the memory does at its address. -/
theorem CellPool.peek_eq_read {p : CellPool} {cells : List CellNo} {o a : Nat} (h : recordAddress cells o = some a) :
    p.peek cells o = Memory.read p.bytes a := by simp [CellPool.peek, h]

/-- A copy none of whose cells is written reads as before. -/
theorem CellPool.peek_writeRecord_disjoint {p : CellPool} (h : Memory.wf p.bytes = true) {cells other : List CellNo}
    (disjoint : ∀ c ∈ other, c ∉ cells) (o : Nat) (bs : List Byte) (x : Nat) :
    (CellPool.writeRecord cells p o bs).peek other x = p.peek other x := by
  unfold CellPool.peek
  split
  · next a ha =>
    refine CellPool.read_writeRecord_other h fun y _ _ hy => ?_
    obtain ⟨c, hc, hca⟩ := recordAddress_mem ha
    obtain ⟨d, hd, hda⟩ := recordAddress_mem hy
    have hcd : c = d := Fin.ext (by omega)
    exact disjoint c hc (hcd ▸ hd)
  · rfl

/-- The bytes of newly allocated cells filled with 00h (R30). -/
theorem CellPool.peek_zero {p : CellPool} (h : Memory.wf p.bytes = true) {cells : List CellNo} (nodup : cells.Nodup)
    {x : Nat} (hx : x < 16 * cells.length) : (p.zero cells).peek cells x = 0x00#8 := by
  rw [CellPool.zero, CellPool.peek_writeRecord h nodup hx]
  simp only [Config.cellBytes, List.length_replicate]
  rw [if_pos (by omega)]
  simp [List.getD]

/-- The bytes of newly allocated cells filled from a copy of as many cells (R30). -/
theorem CellPool.peek_copyFrom {p : CellPool} (h : Memory.wf p.bytes = true) {source target : List CellNo}
    (nodup : target.Nodup) (size : source.length = target.length) {x : Nat} (hx : x < 16 * target.length) :
    (p.copyFrom source target).peek target x = p.peek source x := by
  rw [CellPool.copyFrom, CellPool.peek_writeRecord h nodup hx]
  simp only [Config.cellBytes, CellPool.readRecord, List.length_map, List.length_range]
  rw [if_pos (by omega)]
  have : x < 16 * source.length := by omega
  simp [List.getD, this]

@[simp] theorem CellPool.readRecord_length (p : CellPool) (cells : List CellNo) (o count : Nat) :
    (p.readRecord cells o count).length = count := by simp [CellPool.readRecord]

/-- What an allocation takes (R30). -/
theorem CellPool.allocate_eq_some {p q : CellPool} {count : Nat} {cells : List CellNo} :
    p.allocate count = some (cells, q) ↔
      count ≤ p.free.length ∧ cells = p.free.take count ∧ q = { p with free := p.free.drop count } := by
  unfold CellPool.allocate
  split
  · simp_all [eq_comm]
  · next h => simp [h]

theorem CellPool.allocate_eq_none {p : CellPool} {count : Nat} :
    p.allocate count = none ↔ p.free.length < count := by
  unfold CellPool.allocate
  split <;> simp_all

end Sys2Proof.Machine
end

