-- ==== Sys2Proof/Tests/Slice0.lean ====
section
/-! SUPPORT. Tests of single steps with values worked out from the spec, and for each statement that has hypotheses a
witness: a concrete state and operands that meet them. -/

namespace Sys2Proof.Tests

open Sys2Proof Sys2Proof.Machine

-- The many kernel evaluations below are checked one after another, each on the one thread.
set_option Elab.async false

/-! ## Sample states -/

/-- A SOURCE record of 16 bytes with every permit, one tick below its limit, at the version that 0 follows. -/
def source : Entry where
  state := .live
  handle := 0x105#9
  role := .source
  length := 16
  permits := ⟨true, true, true⟩
  limit := 100
  amended := false
  age := 99
  version := 63
  current := some [0]
  staged := none
  held := none
  staleSeen := false
  claimedSeen := false

/-- A SOURCE record of 64 bytes, four segments. -/
def longSource : Entry :=
  { source with length := 64, permits := ⟨false, true, true⟩, current := some [0, 1, 2, 3] }

/-- A MIRROR record of 16 bytes that has no data yet. -/
def mirror : Entry :=
  { source with
    state := .draft, role := .mirror, permits := ⟨false, false, false⟩, age := 0, version := 0, current := none }

/-- The part with entry 0 as given, in the Handle Index with its record OPEN and every cause in its mask. -/
def holding (x : Entry) : State :=
  { State.reset with
    table := (TableController.reset.setEntry 0 x).setIndex x.handle (some 0)
    pool := ⟨[], (List.finRange 384).drop x.cells.length⟩
    attention := AttentionUnit.reset.setRecord 0 ⟨.opened, x.handle, 0x1FFF#13, 0#13⟩ }

/-- The part in LISTEN with the phase given. -/
def listening (p : Phase) (s : State) : State :=
  { s with line := { s.line with mode := .listen, phase := p, idle := some 5 } }

/-- A frame in flight on entry 0, with its action, tag and number of characters. -/
def inFlight (p : Phase) (a : Action) (tag : Tag) (n : Nat) (s : State) : State :=
  { s with
    table := { s.table with inFlight := some 0 }
    line := { s.line with
      mode := .listen, phase := p, idle := some 5
      frame := { handle := some (s.entry 0).handle, action := some a, tag := some tag, entry := some 0
                 segment := if a = .fetch then some tag else none, n := some n, deadline := some (12 * n + 16) } } }

/-- A header received up to H2. -/
def headed (h : Handle) (a : BitVec 3) (tag : Tag) (s : State) : State :=
  { s with line := { s.line with
      mode := .listen, phase := .header, idle := some 5
      header := [syncByte, encodeH1 h, encodeH2 h a tag]
      check := crcRun crcStart [encodeH1 h, encodeH2 h a tag] } }

/-- Claim slot 0 as given. -/
def claimedBy (x : Slot) (s : State) : State := { s with claims := s.claims.setSlot 0 x }

/-- The pin on entry 0. -/
def pinned (k : PinKind) (o : PinOwner) (s : State) : State := s.setPin (some ⟨0, k, o⟩)

/-- A command outstanding. -/
def waitingFor (w : Work) (s : State) : State := { s with host := s.host.outstanding w }

/-- What a command gives. -/
def after (c : Instr) (s : State) : State :=
  match exec c s with
  | .next t => t
  | .fault _ => s
  | .refused _ => s

/-! ## What the sample states meet -/

theorem reset_entry (e : EntryNo) : TableController.reset.entry e = Entry.vacant := by
  simp [TableController.entry, TableController.reset]

theorem reset_lookup (h : Handle) : TableController.reset.lookup h = none := by
  simp [TableController.lookup, TableController.reset]

theorem holding_entry (x : Entry) (e : EntryNo) : (holding x).entry e = if e = 0 then x else Entry.vacant := by
  simp only [holding, State.entry, TableController.entry_setIndex, TableController.entry_setEntry, reset_entry]

theorem holding_memoryOk (x : Entry) : MemoryOk (holding x) := rfl

/-- The cells before the first free one are the entry's, in order. -/
theorem holding_cellsOk {x : Entry} (h : x.cells = (List.finRange 384).take x.cells.length) : CellsOk (holding x) := by
  have hc : (holding x).copyCells = x.cells := by
    have : ∀ l : List EntryNo, l.Nodup →
        (l.flatMap fun e => ((holding x).entry e).cells) = if (0 : EntryNo) ∈ l then x.cells else [] := by
      intro l hl
      induction l with
      | nil => rfl
      | cons a l ih =>
        have nd := List.nodup_cons.1 hl
        rw [List.flatMap_cons, ih nd.2]
        by_cases ha : a = 0
        · subst ha
          simp [holding_entry, nd.1]
        · simp [holding_entry, ha, Entry.cells, Entry.vacant, Ne.symm ha]
    exact (this _ (List.nodup_finRange 128)).trans (if_pos (List.mem_finRange 0))
  intro c
  rw [hc]
  have : ((holding x).pool.free ++ x.cells).Perm (List.finRange 384) := by
    have all := List.take_append_drop x.cells.length (List.finRange 384)
    rw [← h] at all
    exact all ▸ List.perm_append_comm
  rw [this.count_eq]
  exact List.count_eq_one_of_mem (List.nodup_finRange 384) (List.mem_finRange c)

theorem holding_indexOk {x : Entry} (h : x.state.indexed = true) : IndexOk (holding x) := by
  intro g e
  have hl : (holding x).table.lookup g = if g = x.handle then some 0 else none := by
    simp only [holding, TableController.lookup_setIndex, TableController.lookup_setEntry, reset_lookup]
  rw [hl, holding_entry]
  by_cases h0 : e = 0
  · simpa [h0, h] using eq_comm
  · simp [h0, Entry.vacant, EntryState.indexed, Ne.symm h0]

/-- The claim table with slot 0 alone in use. -/
theorem claimsOk_of_slot {s : State} (x : Slot)
    (h : s.claims = (⟨ClaimTable.noClaims, 1000⟩ : ClaimTable).setSlot 0 x) (ok : slotOk s x)
    (taken : s.line.frame.asking = false := by rfl) : ClaimsOk s := by
  have hs : ∀ k : SlotNo, s.claims.slot k = if k = 0 then x else .free := by
    intro k
    rw [h, ClaimTable.slot_setSlot]
    split
    · rfl
    · simp [ClaimTable.slot, ClaimTable.noClaims]
  refine ⟨fun k => ?_, fun e j k hj hk => ?_, by rw [h]; show 10 ≤ 1000 ∧ 1000 ≤ 60000; decide,
    fun _ _ ha => by simp [taken] at ha⟩
  · rw [hs]
    split
    · exact ok
    · trivial
  · rw [hs] at hj hk
    by_cases h0 : j = 0 <;> by_cases h1 : k = 0 <;> simp_all [Slot.names]

/-! ## Formats (R94 to R96, R167, R180) -/

/-- The one check of WellFormed: a STAGE whose parameters do not fit the count byte is ill formed. -/
theorem test_wellFormed_refuses_long_stage : wellFormed (.stage 0 0 (List.replicate 254 0x00#8)) = false := by
  decide +kernel

theorem test_wellFormed_accepts_stage : wellFormed (.stage 0 0 (List.replicate 253 0x00#8)) = true := by decide +kernel

/-- The worked header of section 5.5.1: bytes 41h 34h name handle 041h, a CLAIM, tag 3. -/
theorem test_header_bytes :
    headerHandle 0x41#8 0x34#8 = 0x041#9 ∧ Action.ofCode (headerAction 0x34#8) = some .claim ∧
      headerTag 0x34#8 = 3#4 := by decide

/-- Bit 0 of H2 is the handle's ninth bit: 05h 81h is a FETCH of segment 8 of handle 105h. -/
theorem test_header_ninth_bit :
    headerHandle 0x05#8 0x81#8 = 0x105#9 ∧ Action.ofCode (headerAction 0x81#8) = some .fetch ∧
      headerTag 0x81#8 = 8#4 := by decide

/-- The worked values of section 5.5.1: the header 41h 34h has the check 15h, the answer 01h after it 6Ch. -/
theorem test_check_of_worked_frame :
    crcRun crcStart [0x41#8] = 0x33#8 ∧ crcRun crcStart [0x41#8, 0x34#8] = 0x15#8 ∧
      withCheck 0x15#8 [0x01#8] = [0x01#8, 0x6C#8] := by decide

/-- A FETCH tag byte and a captured one (R108, R179). -/
theorem test_tag_byte :
    tagByte true false 5#6 = 0x85#8 ∧ tagVersion 0x7F#8 = 63#6 ∧ tagStale 0x7F#8 = true ∧
      tagClaimed 0x7F#8 = false := by decide

/-- FIND of handle 105h, written out from R180: code 17h, two parameters, high byte first. -/
theorem test_frame_find :
    judgeFrame [0x17#8, 0x02#8, 0x01#8, 0x05#8] = .frame 0x17#8 [0x01#8, 0x05#8] ∧
      decodeCommand 0x17#8 [0x01#8, 0x05#8] = .command (.find 0x0105#16) := by decide

/-- AMEND's parameters in R180's order: entry, selector, permits, mask, limit. -/
theorem test_frame_amend :
    decodeCommand 0x11#8 [0x7F#8, 0x06#8, 0x01#8, 0x12#8, 0x34#8, 0x00#8, 0x64#8] =
      .command (.amend 0x7F#8 0x06#8 0x01#8 0x1234#16 0x0064#16) := by decide

/-- A frame one byte short, and one that declares 41 parameters (R167). -/
theorem test_bad_frames :
    judgeFrame [0x17#8, 0x02#8, 0x01#8] = .badFrame ∧
      judgeFrame (0x12#8 :: 0x29#8 :: List.replicate 41 0x00#8) = .badFrame := by decide

/-- No row of the table has bits (log 25). -/
theorem test_table_word : decodeTableWord 16 0x1234 = none ∧ State.reset.withFetchWord 16 0x1234 = State.reset :=
  ⟨rfl, rfl⟩

/-! ## The Host Port -/

/-- The first transaction after a reset shifts out STARTED and an empty reply (R166, R172). -/
theorem test_csFall_started : (after .csFall State.reset).host.sdo = some [0x01#8, 0x00#8] := by decide +kernel

/-- A frame cut short is BAD_FRAME (R167); SDO carries STARTED, a length of 0, and 00h after the image (R166). -/
theorem test_csRise_badFrame :
    let s := after (.csRise [0x17#8, 0x02#8, 0x01#8]) (after .csFall State.reset)
    s.host.slot = ⟨.badFrame, []⟩ ∧ s.host.shifted = [0x01#8, 0x00#8, 0x00#8] := by decide +kernel

/-- A whole frame is handed to its block, READY deasserted; the block's turn then answers it (R168, R173). -/
theorem test_csRise_hands_over :
    let s := after (.csRise [0x31#8, 0x00#8]) (after .csFall State.reset)
    (s.host.ready, s.host.work) = (false, some (.handed .lineStatus)) ∧
      (after .lineStatus s).host.slot = ⟨.done, [0x00#8, 0x00#8, 0x00#8]⟩ := by decide +kernel

theorem test_nop_keeps_slot : (after .nop State.reset).host = State.reset.host := by decide +kernel

theorem test_powerOn_deasserts_ready :
    (after .powerOn (holding source)).host.ready = false ∧
      ((after .powerOn (holding source)).entry 0).state = .vacant := by decide +kernel

theorem test_pinReset_default_lease :
    (after .pinReset { State.reset with claims := ⟨ClaimTable.noClaims, 10⟩ }).claims.lease = 1000 := by
  decide +kernel

/-- A CS already low when the reset ends is a fall of CS (R172). -/
theorem test_resetRelease_reads_low_cs :
    (after .resetRelease (after .csFall (after .pinReset State.reset))).host.sdo = some [0x02#8, 0x00#8] := by
  decide +kernel

theorem test_initialisation_completes :
    (after .initialisationComplete (after .resetRelease (after .powerOn State.reset))).host = State.reset.host := by
  decide +kernel

/-- RESTART keeps the configuration (R176). -/
theorem test_restart_keeps_configuration :
    let s := after .restart (after (.configure 0x03#8 0x0028#16 0x07#8 0x000A#16) (holding source))
    (s.line.rate, s.line.hold, s.line.idleLimit, s.claims.lease) = (.r38400, 40, 7, 10) ∧
      (s.entry 0).state = .vacant := by decide +kernel

theorem test_restartCharacterEnd_completes :
    (after .restartCharacterEnd (waitingFor .restart (inFlight .answering .probe 0 5 (holding source)))).host.slot =
      ⟨.done, []⟩ := by decide +kernel

/-! ## Records and copies -/

/-- DEFINE takes the lowest-numbered VACANT entry and adds RETIRED to the mask (R8, R16). -/
theorem test_define_takes_entry_1 :
    let s := after (.define 0x01FF#16 0x01#8 0x40#8 0x06#8 0x0000#16 0x0003#16) (holding source)
    s.host.slot = ⟨.done, [0x01#8]⟩ ∧ s.table.lookup 0x1FF#9 = some 1 ∧
      (s.attention.record 1).mask = 0x1003#13 := by decide +kernel

/-- A length of 65 is refused (R15). -/
theorem test_define_length_65 :
    (after (.define 0x01FF#16 0x01#8 0x41#8 0x00#8 0x0000#16 0x0000#16) State.reset).host.slot =
      ⟨.badArgument, []⟩ := by decide +kernel

/-- STORE_OK above 16 bytes is refused in an AMEND (R17). -/
theorem test_amend_store_permit :
    (after (.amend 0x00#8 0x01#8 0x01#8 0x0000#16 0x0000#16) (holding longSource)).host.slot =
      ⟨.badArgument, []⟩ := by decide +kernel

theorem test_amend_limit_alone :
    ((after (.amend 0x00#8 0x04#8 0x00#8 0x0000#16 0x0001#16) (holding source)).entry 0) =
      { source with limit := 1, amended := true } := by decide +kernel

/-- A first STAGE of four segments takes cells 4 to 7, and byte 63 is written in cell 7 (R30, R32). -/
theorem test_stage_last_byte :
    let s := after (.stage 0x00#8 0x3F#8 [0xAA#8]) (holding longSource)
    (s.entry 0).staged = some [4, 5, 6, 7] ∧ s.pool.bytes = [(127, 0xAA#8)] := by decide +kernel

/-- A COMMIT from version 63 answers 0 and frees the old cell to the tail (R6, R31, R39). -/
theorem test_commit_wraps_the_version :
    let s := after (.commit 0x00#8) (after (.stage 0x00#8 0x00#8 [0xAA#8]) (holding source))
    s.host.slot = ⟨.done, [0x00#8]⟩ ∧ (s.entry 0).current = some [1] ∧ s.pool.free.getLast? = some 0 := by
  decide +kernel

/-- A COMMIT under the pin keeps the old copy as the held copy, at its version (R39). -/
theorem test_commit_under_the_pin :
    let s := after (.commit 0x00#8) (after (.stage 0x00#8 0x00#8 [0xAA#8]) (pinned .current .frame (holding source)))
    (s.entry 0).held = some ⟨[0], 63⟩ ∧ s.table.pin = some ⟨0, .held, .frame⟩ := by decide +kernel

theorem test_discard_frees :
    let s := after (.discard 0x00#8) (after (.stage 0x00#8 0x00#8 [0xAA#8]) (holding source))
    (s.entry 0).staged = none ∧ s.pool.free.getLast? = some 1 := by decide +kernel

/-- READ gives version, state, source flags, then the bytes (R42). -/
theorem test_read_two_bytes :
    (after (.read 0x00#8 0x0E#8 0x02#8)
      { holding source with pool := ⟨[(15, 0x5A#8)], [1]⟩ }).host.slot =
        ⟨.done, [0x3F#8, 0x02#8, 0x00#8, 0x00#8, 0x5A#8]⟩ := by decide +kernel

theorem test_describe :
    (after (.describe 0x00#8) (holding source)).host.slot = ⟨.done,
      [0x00#8, 0x02#8, 0x01#8, 0x05#8, 0x01#8, 0x10#8, 0x07#8, 0x00#8, 0x64#8, 0x00#8, 0x63#8, 0x3F#8, 0x01#8, 0x00#8,
        0x00#8, 0x1F#8, 0xFF#8, 0x00#8, 0x00#8]⟩ := by decide +kernel

theorem test_find : (after (.find 0x0105#16) (holding source)).host.slot = ⟨.done, [0x00#8, 0x02#8]⟩ := by
  decide +kernel

/-- A RETIRE of a record a frame is in flight on leaves it RETIRING (R24). -/
theorem test_retire_in_flight :
    let s := after (.retire 0x00#8) (inFlight .receiving .store 0 17 (holding source))
    s.host.slot = ⟨.done, [0x04#8]⟩ ∧ (s.entry 0).state = .retiring := by decide +kernel

/-! ## Claims -/

theorem test_hold_takes_slot_0 :
    let s := after (.hold 0x00#8) (holding source)
    s.host.slot = ⟨.done, [0x00#8]⟩ ∧ s.claims.slot 0 = .heldHost 0 := by decide +kernel

/-- HOLD on a LINE claim gives the tag and the HELD mark (R77). -/
theorem test_hold_meets_a_line_claim :
    (after (.hold 0x00#8) (claimedBy (.heldLine 0 9 500) (holding source))).host.slot =
      ⟨.claimed, [0x09#8, 0x02#8]⟩ := by decide +kernel

/-- LET_GO with force ends a LINE claim with CLAIM_ENDED (R79). -/
theorem test_letGo_by_force :
    let s := after (.letGo 0x00#8 0x01#8) (claimedBy (.heldLine 0 9 500) (holding source))
    s.claims.slot 0 = .free ∧ (s.attention.record 0).causes = 0x0800#13 := by decide +kernel

theorem test_leaseExpiry :
    (after (.leaseExpiry 0) (claimedBy (.heldLine 0 9 0) (holding source))).claims.slot 0 = .free := by decide +kernel

/-! ## Attention -/

/-- TAKE gives the entry, its handle and its causes, and takes it off the list (R158). -/
theorem test_take :
    let s := after .take ((holding source).post 0 .updated)
    s.host.slot = ⟨.done, [0x00#8, 0x01#8, 0x05#8, 0x00#8, 0x01#8, 0x00#8]⟩ ∧ s.attention.attn = false := by
  decide +kernel

theorem test_takeEndedVacate :
    ((after .takeEndedVacate
      (waitingFor (.vacate 0 []) (holding { source with state := .ended, current := none }))).entry 0).state =
        .vacant := by decide +kernel

/-- LINE_STATUS in LISTEN, SKIPPING, with CUT set: 01h, 06h, 40h; the set is then empty (R163, R181). -/
theorem test_lineStatus :
    let s := after .lineStatus ((listening .skipping (holding source)).setCondition .cut)
    s.host.slot = ⟨.done, [0x01#8, 0x06#8, 0x40#8]⟩ ∧ s.attention.conditions = 0#8 := by decide +kernel

/-! ## Time -/

/-- At the tick that brings the age to its limit the record is STALE, and its STALE is kept (R55, R58). -/
theorem test_tick_expires :
    (after .tick (holding source)).entry 0 = { source with age := 100, state := .stale } := by decide +kernel

/-- A lease of 1 ms ends at the tick (R73). -/
theorem test_tick_ends_a_lease :
    (after .tick (claimedBy (.heldLine 0 9 1) (holding source))).claims.slot 0 = .free := by decide +kernel

/-- The row's own comparison, and the wait for the next tick after an AMEND of the limit (R61). -/
theorem test_freshnessExpiry :
    ((after (.freshnessExpiry 0) (holding { source with age := 100 })).entry 0).state = .stale ∧
      (let s := after (.amend 0x00#8 0x04#8 0x00#8 0x0000#16 0x0001#16) (holding source)
      ((after (.freshnessExpiry 0) s).entry 0).state = .live ∧ ((after .tick s).entry 0).state = .stale) := by
  decide +kernel

theorem test_idleExpiry_in_waiting :
    let s := listening .waiting (holding source)
    (after .idleExpiry { s with line := { s.line with idleLimit := 1, idle := some 1000 } }).line.mode = .dormant := by
  decide +kernel

theorem test_deferredIdleExpiry :
    let s := listening .skipping (holding source)
    (after .deferredIdleExpiry { s with line := { s.line with idlePending := true } }).line.mode = .dormant := by
  decide +kernel

/-- The hold of a SERVE sequence runs out: the pin is released, SEG_BROKEN posted (R113, R114). -/
theorem test_segmentHoldExpiry :
    let s := (listening .waiting (pinned .current .sequence (holding longSource))).setSeq
      (some ⟨.serve, 0x105, 0, 1, none, some 400⟩)
    (after .segmentHoldExpiry s).table.pin = none ∧
      ((after .segmentHoldExpiry s).attention.record 0).causes = 0x0080#13 := by decide +kernel

/-! ## Modes -/

theorem test_configure_refuses_in_listen :
    (after (.configure 0x00#8 0x0028#16 0x00#8 0x000A#16) (listening .waiting (holding source))).host.slot =
      ⟨.wrongMode, []⟩ := by decide +kernel

theorem test_configure_hold_39 :
    (after (.configure 0x00#8 0x0027#16 0x00#8 0x000A#16) State.reset).host.slot = ⟨.badArgument, []⟩ := by
  decide +kernel

theorem test_setMode_listen : (after (.setMode 0x01#8) State.reset).line.mode = .listen := by decide +kernel

theorem test_setMode_dormant_busy :
    (after (.setMode 0x02#8) (inFlight .space .probe 0 5 (holding source))).host.slot = ⟨.lineBusy, []⟩ := by
  decide +kernel

theorem test_offlineCharacterEnd :
    let s := after .offlineCharacterEnd (waitingFor .offline (inFlight .answering .probe 0 5 (holding source)))
    s.line.mode = .offline ∧ s.attention.conditions = 0x80#8 := by decide +kernel

theorem test_rouse_refused_in_offline : (after .rouse State.reset).host.slot = ⟨.wrongMode, []⟩ := by decide +kernel

theorem test_rouse_pulse :
    let s := after .rouse (after (.setMode 0x02#8) State.reset)
    (s.line.mode, s.line.txd) = (.rousing, .pulse) ∧
      (after (.rousePulseEnd false) s).host.slot = ⟨.done, [0x00#8]⟩ := by decide +kernel

/-- The line stays dominant after the pulse for 20 ms: LISTEN in RECOVERING, phase byte 07h (R153). -/
theorem test_rouse_stuck :
    let s := after (.rousePulseEnd true) (after .rouse (after (.setMode 0x02#8) State.reset))
    (after .rouseStuckTimeout s).host.slot = ⟨.done, [0x07#8]⟩ ∧
      (after .rouseLineRelease s).host.slot = ⟨.done, [0x00#8]⟩ := by decide +kernel

theorem test_dormant_rouse :
    let s := after (.setMode 0x02#8) State.reset
    (after .rouseRunEnd (after .rouseDetected s)).line.mode = .listen ∧
      (after .rouseRunEnd (after .dormantShortRun s)).line.mode = .dormant ∧
      (after .dormantLineStuck s).line.phase = .recovering := by decide +kernel

/-! ## The line -/

theorem test_break_and_header :
    let s := after .breakRecognised (after .dominantRunStart (listening .waiting (holding source)))
    s.line.phase = .inBreak ∧ (after .breakEnd s).line.phase = .header ∧
      (after .runShortOfBreak s).line.phase = .inBreak := by decide +kernel

theorem test_runShortOfBreak :
    (after .runShortOfBreak (after .dominantRunStart (listening .waiting (holding source)))).line.phase = .waiting := by
  decide +kernel

theorem test_startBitSample :
    (after (.startBitSample true) (listening .header (holding source))).line.assembling = true ∧
      (after (.startBitSample false) (listening .header (holding source))).line.assembling = false := by decide +kernel

/-- A run that begins in the last half bit of the part's own answer is a break in WAITING; one that was under way at the
entry to LISTEN is none, and the next one is (R89, R90). -/
theorem test_break_in_waiting :
    let s := after .answerComplete (inFlight .answering .probe 0 5 (holding source))
    s.line.phase = .waiting ∧ (after .breakRecognised s).line.phase = .inBreak ∧
      (let t := after (.setMode 0x01#8) State.reset
      (after .breakRecognised t).line.phase = .waiting ∧
        (after .breakRecognised (after .dominantRunStart t)).line.breakSeen = true) := by decide +kernel

theorem test_headerOvertime :
    (after .headerOvertime (listening .header (holding source))).attention.conditions = 0x08#8 := by decide +kernel

/-- A wrong SYNC is SYNC_BAD (R129). -/
theorem test_headerCharacter_sync :
    (after (.headerCharacter 0xC4#8 false) (listening .header (holding source))).attention.conditions = 0x01#8 := by
  decide +kernel

/-- A good CLAIM header reserves slot 0 and is answered GRANTED with two characters (R69, R118). -/
theorem test_headerCharacter_claim :
    let s := headed 0x105#9 2#3 3#4 (holding source)
    let t := after (.headerCharacter s.line.check false) s
    t.line.frame.code = some .granted ∧ t.claims.slot 0 = .reserved 0 3 0 false ∧ t.line.phase = .space := by
  decide +kernel

/-- The answer to a FETCH of a one-segment record: its bytes, the tag byte, the check (R109). -/
theorem test_fetch_answer :
    let s := headed 0x105#9 0#3 0#4 (holding { source with length := 1, version := 5 })
    let t := after .responseSpaceEnd (after (.headerCharacter s.line.check false) s)
    t.line.frame.answer = withCheck s.line.check [0x00#8, 0x05#8] ∧ t.line.txd = .answer := by decide +kernel

/-- A request that has waited behind a host RETIRE: a PROBE reports state 4, a FETCH of a STALE record has bit 6 clear
(R108, R120). -/
theorem test_request_after_retire :
    let asked := fun a n s => (inFlight .space a 0 n s).setAsking true
    let retired := fun s => after .responseSpaceEnd (after (.retire 0x00#8) s)
    (retired (asked .probe 5 (holding source))).line.frame.reply = [0x10#8, 0x04#8, 0x3F#8, 0x00#8] ∧
      (retired (asked .fetch 18 (holding { source with state := .stale, version := 5 }))).line.frame.reply =
        [0x05#8] := by decide +kernel

theorem test_answerComplete_releases_the_pin :
    (after .answerComplete
      (pinned .current .frame (inFlight .answering .fetch 0 18 (holding source)))).table.pin = none := by decide +kernel

theorem test_spaceCollision :
    let s := after .spaceCollision (inFlight .space .probe 0 5 (holding source))
    s.line.phase = .skipping ∧ (s.attention.record 0).causes = 0x0020#13 := by decide +kernel

theorem test_readback_collision :
    let s := after .readbackMismatch (inFlight .answering .probe 0 5 (holding source))
    s.line.txd = .released ∧ (after (.collidedCharacterEnd false) s).line.phase = .skipping ∧
      (after (.collidedCharacterEnd true) s).line.phase = .inBreak := by decide +kernel

/-- A one-byte STORE with a good check overwrites the current copy: version 63 is followed by 0 (R6, R48). -/
theorem test_store_lands :
    let s := inFlight .receiving .store 0 2 (holding { source with length := 1 })
    let t := after (.responseCharacter 0xAA#8 false) s
    let u := after (.responseCharacter t.line.check false) t
    u.pool.bytes = [(0, 0xAA#8)] ∧ (u.entry 0).version = 0 ∧ (u.attention.record 0).causes = 0x0001#13 := by
  decide +kernel

theorem test_response_framing :
    ((after (.responseCharacter 0xAA#8 true)
      (inFlight .receiving .store 0 17 (holding source))).attention.record 0).causes = 0x0008#13 := by decide +kernel

/-- NO_ANSWER; and OVERTIME where an edge has been seen just before the deadline, unless its sample dropped it (R136). -/
theorem test_responseWindowDeadline :
    let s := inFlight .receiving .store 0 17 (holding source)
    let causes := fun s => ((after .responseWindowDeadline s).attention.record 0).causes
    causes s = 0x0004#13 ∧ causes (after .dominantRunStart s) = 0x0010#13 ∧
      causes (after (.startBitSample false) (after .dominantRunStart s)) = 0x0004#13 := by decide +kernel

theorem test_lineStuck_and_recovery :
    let s := after .recoveringRunEnd (after .lineStuck (listening .skipping (holding source)))
    s.line.phase = .recovering ∧ s.attention.conditions = 0x20#8 ∧
      (after .recoveryComplete s).line.phase = .waiting := by decide +kernel

/-! ## Witnesses: the queue, the formats and the host commands

Each theorem is named after the statement whose hypotheses it shows to be met; a statement in clauses has the
hypotheses of each clause, at a boundary value where there is a range. -/

/-- A host command that reaches its block from IDLE. -/
theorem takes_idle {s : State} {c : Instr} (h : portRefusal c = none) (i : s.host.state = .idle) : s.Takes c :=
  ⟨h, .inr i⟩

theorem witness_StepTakesTheFrontCommand :
    { State.reset with pending := [.take, .nop] }.pending = .take :: [.nop] ∧ State.reset.pending = [] :=
  ⟨rfl, rfl⟩

theorem witness_RefusedCommandChangesNoBlock :
    ∃ t : State, Instr.isHostCommand .take = true ∧ exec .take State.reset = .next t ∧ t.host.work = none ∧
      t.host.slot.status ≠ .done :=
  ⟨_, rfl, rfl, by decide +kernel, by decide +kernel⟩

/-- The last entry byte and the first beyond it; RETIRING and ENDED entries. -/
theorem witness_RecordCommandsRefuseInOrder :
    (Instr.namedEntry (.commit 0x80#8) = some (0x80#8, false) ∧ State.reset.Takes (.commit 0x80#8) ∧
      128 ≤ (0x80#8 : Byte).toNat) ∧
    (Instr.namedEntry (.describe 0x7F#8) = some (0x7F#8, true) ∧ State.reset.Takes (.describe 0x7F#8) ∧
      (State.reset.entry 127).state = .vacant) ∧
    ∀ p : EntryState, p = .retiring ∨ p = .ended →
      (holding { source with state := p }).Takes (.commit 0x00#8) ∧
        ((holding { source with state := p }).entry 0).state = p :=
  ⟨⟨rfl, takes_idle rfl rfl, by decide⟩, ⟨rfl, takes_idle rfl rfl, by decide +kernel⟩,
    fun _ _ => ⟨takes_idle rfl rfl, by simp [holding_entry]⟩⟩

/-- The longest STAGE, and NOP, whose frame has no second byte to judge. -/
theorem witness_CommandFramesReadBack :
    (encodeCommand (.stage 0x7F#8 0x20#8 (List.replicate 32 0xFF#8)) =
        some (0x12#8, 0x7F#8 :: 0x20#8 :: List.replicate 32 0xFF#8) ∧
      portRefusal (.stage 0x7F#8 0x20#8 (List.replicate 32 0xFF#8)) = none) ∧
    encodeCommand .nop = some (0x00#8, []) ∧ portRefusal .nop = none := by decide +kernel

theorem witness_OneWrongByteChangesTheCheck :
    crcRun 0xFF#8 ([0x41#8] ++ 0x34#8 :: [0x01#8]) = crcRun 0xFF#8 ([0x41#8] ++ 0x34#8 :: [0x01#8]) := rfl

/-- A record that is CLOSED, one that is OPEN, and ATTN as R164 gives. -/
theorem witness_PostingKeepsWhatTheMaskNames :
    (holding source).attention.attn =
      (!(holding source).attention.list.isEmpty || (holding source).attention.conditions != 0#8) ∧
    ((holding source).attention.record 1).posting = .closed ∧
    ((holding source).attention.record 0).posting ≠ .closed ∧
    ((holding source).attention.record 0).causes = 0#13 ∧
      Cause.updated.set &&& ((holding source).attention.record 0).mask ≠ 0#13 := by decide +kernel

theorem witness_TakeReturnsTheHeadOfTheList :
    (State.reset.Takes .take ∧ State.reset.attention.list = []) ∧
    (((holding source).post 0 .updated).Takes .take ∧
      ((holding source).post 0 .updated).attention.list = [0] ∧
      (((holding source).post 0 .updated).attention.record 0).posting = .opened) ∧
    ((((holding source).setPosting 0 .ending).post 0 .retired).Takes .take ∧
      (((holding source).setPosting 0 .ending).post 0 .retired).attention.list = [0] ∧
      ((((holding source).setPosting 0 .ending).post 0 .retired).attention.record 0).posting = .ending) ∧
    (waitingFor (.vacate 0 [0x00#8]) State.reset).host.work = some (.vacate 0 [0x00#8]) :=
  ⟨⟨takes_idle rfl rfl, rfl⟩, ⟨takes_idle rfl rfl, by decide +kernel⟩, ⟨takes_idle rfl rfl, by decide +kernel⟩,
    rfl⟩

theorem witness_LineStatusReportsAndEmptiesTheConditions : State.reset.Takes .lineStatus := takes_idle rfl rfl

/-- Every entry in use, and no handle in the index. -/
def full : State :=
  { State.reset with table := { TableController.reset with entries := Vector.replicate 128 source } }

/-- The longest record and the highest handle and mask, with entry 0 in use; the first length too long, for both roles;
a handle in use; and a full table. -/
theorem witness_DefineRefusesOrMakesADraft :
    ((holding source).Takes (.define 0x01FF#16 0x02#8 0x40#8 0x00#8 0xFFFF#16 0x1FFF#16) ∧
      DefineArgumentsOk 0x01FF#16 0x02#8 0x40#8 0x00#8 0x1FFF#16 ∧
      (holding source).table.lookup 0x1FF#9 = none ∧ ((holding source).entry 1).state = .vacant ∧
      ∀ d : EntryNo, d < 1 → ((holding source).entry d).state ≠ .vacant) ∧
    ¬ DefineArgumentsOk 0x01FF#16 0x01#8 0x41#8 0x00#8 0x1FFF#16 ∧
    ¬ DefineArgumentsOk 0x01FF#16 0x01#8 0x11#8 0x01#8 0x1FFF#16 ∧
    (DefineArgumentsOk 0x0105#16 0x01#8 0x10#8 0x01#8 0x0000#16 ∧ (holding source).table.lookup 0x105#9 ≠ none) ∧
    (full.Takes (.define 0x0000#16 0x01#8 0x01#8 0x00#8 0x0000#16 0x0000#16) ∧
      DefineArgumentsOk 0x0000#16 0x01#8 0x01#8 0x00#8 0x0000#16 ∧ full.table.lookup 0#9 = none ∧
      ∀ e : EntryNo, (full.entry e).state ≠ .vacant) := by
  refine ⟨⟨takes_idle rfl rfl, ?_, by decide +kernel, by decide +kernel, by decide +kernel⟩, ?_, ?_,
    ⟨?_, by decide +kernel⟩, takes_idle rfl rfl, ?_, by decide +kernel, ?_⟩
  · unfold DefineArgumentsOk; decide
  · unfold DefineArgumentsOk; decide
  · unfold DefineArgumentsOk; decide
  · unfold DefineArgumentsOk; decide
  · unfold DefineArgumentsOk; decide
  · intro e
    simp [full, State.entry, TableController.entry, source]

/-- Selectors 7 and 8. -/
theorem witness_AmendWritesTheNamedFields :
    (holding source).Takes (.amend 0x00#8 0x07#8 0x01#8 0x1FFF#16 0xFFFF#16) ∧
    ((holding source).entry 0).state.working = true ∧
    AmendArgumentsOk ((holding source).entry 0) 0x07#8 0x01#8 0x1FFF#16 ∧
    ¬ AmendArgumentsOk ((holding source).entry 0) 0x08#8 0x01#8 0x1FFF#16 := by
  refine ⟨takes_idle rfl rfl, by decide +kernel, ?_, ?_⟩
  · unfold AmendArgumentsOk; decide +kernel
  · unfold AmendArgumentsOk; decide +kernel

/-- Handles 512 and 511, and one that is kept. -/
theorem witness_FindLooksTheHandleUp :
    (holding source).Takes (.find 0x0200#16) ∧ 511 < (0x0200#16 : Half).toNat ∧
    (holding source).Takes (.find 0x01FF#16) ∧ (0x01FF#16 : Half).toNat ≤ 511 ∧
      (holding source).table.lookup 0x1FF#9 = none ∧
    (holding source).Takes (.find 0x0105#16) ∧ (holding source).table.lookup 0x105#9 = some 0 :=
  ⟨takes_idle rfl rfl, by decide, takes_idle rfl rfl, by decide, by decide +kernel, takes_idle rfl rfl,
    by decide +kernel⟩

theorem witness_DescribeReportsTheFields :
    (holding source).Takes (.describe 0x00#8) ∧ ((holding source).entry 0).state ≠ .vacant :=
  ⟨takes_idle rfl rfl, by decide +kernel⟩

theorem longSource_copiesOk : EntryCopiesOk ((holding longSource).entry 0) := by
  rw [holding_entry]
  constructor <;> decide

/-- The last byte of the longest record, on a pool with cells to take. -/
theorem witness_FirstStageCopiesAndWrites :
    (holding longSource).Takes (.stage 0x00#8 0x3F#8 [0xAA#8]) ∧
    ((holding longSource).entry 0).state.working = true ∧ ((holding longSource).entry 0).role = .source ∧
    (0x3F#8 : Byte).toNat + [0xAA#8].length ≤ ((holding longSource).entry 0).length ∧
    ((holding longSource).entry 0).staged = none ∧
    ((holding longSource).entry 0).segments ≤ (holding longSource).pool.free.length ∧
    MemoryOk (holding longSource) ∧ CellsOk (holding longSource) ∧ EntryCopiesOk ((holding longSource).entry 0) :=
  ⟨takes_idle rfl rfl, by decide +kernel, by decide +kernel, by decide +kernel, by decide +kernel, by decide +kernel,
    holding_memoryOk _, holding_cellsOk (by decide +kernel), longSource_copiesOk⟩

/-- A record of 16 bytes with a current and a staged copy. -/
def staging : Entry := { source with staged := some [1] }

theorem staging_copiesOk : EntryCopiesOk ((holding staging).entry 0) := by
  rw [holding_entry]
  constructor <;> decide

/-- A MIRROR; one byte too far; no cell left; and the last byte of a staged copy. -/
theorem witness_StageRefusesOrWritesInPlace :
    ((holding mirror).Takes (.stage 0x00#8 0x00#8 [0xAA#8]) ∧ ((holding mirror).entry 0).state.working = true ∧
      ((holding mirror).entry 0).role = .mirror) ∧
    ((holding source).Takes (.stage 0x00#8 0x10#8 [0xAA#8]) ∧ ((holding source).entry 0).role = .source ∧
      ((holding source).entry 0).length < (0x10#8 : Byte).toNat + [0xAA#8].length) ∧
    ({ holding source with pool := ⟨[], []⟩ }.Takes (.stage 0x00#8 0x0F#8 [0xAA#8]) ∧
      ((holding source).entry 0).staged = none ∧ ([] : List CellNo).length < ((holding source).entry 0).segments) ∧
    ((holding staging).Takes (.stage 0x00#8 0x0F#8 [0xAA#8]) ∧ ((holding staging).entry 0).state.working = true ∧
      ((holding staging).entry 0).role = .source ∧
      (0x0F#8 : Byte).toNat + [0xAA#8].length ≤ ((holding staging).entry 0).length ∧
      ((holding staging).entry 0).staged = some [1] ∧ MemoryOk (holding staging) ∧ CellsOk (holding staging) ∧
      EntryCopiesOk ((holding staging).entry 0)) :=
  ⟨⟨takes_idle rfl rfl, by decide +kernel, by decide +kernel⟩,
    ⟨takes_idle rfl rfl, by decide +kernel, by decide +kernel⟩,
    ⟨takes_idle rfl rfl, by decide +kernel, by decide +kernel⟩,
    ⟨takes_idle rfl rfl, by decide +kernel, by decide +kernel, by decide +kernel, by decide +kernel,
      holding_memoryOk _, holding_cellsOk (by decide +kernel), staging_copiesOk⟩⟩

/-- Any state of the sample record whose claims are slot 0 alone keeps the Claim Table's invariant. -/
theorem claimed_claimsOk {x : Entry} {c : Slot} (ok : slotOk (claimedBy c (holding x)) c) :
    ClaimsOk (claimedBy c (holding x)) := claimsOk_of_slot c rfl ok

theorem freeClaims_claimsOk {s : State} (h : s.claims = State.reset.claims)
    (taken : s.line.frame.asking = false := by rfl) : ClaimsOk s :=
  claimsOk_of_slot .free (h.trans (by decide +kernel)) trivial taken

theorem unclaimed_claimsOk (x : Entry) : ClaimsOk (holding x) := freeClaims_claimsOk rfl

theorem heldLine_claimsOk : ClaimsOk (claimedBy (.heldLine 0 9 500) (holding staging)) :=
  claimed_claimsOk ⟨by decide +kernel, by decide +kernel, by decide, by decide, by decide⟩

theorem heldHost_claimsOk : ClaimsOk (claimedBy (.heldHost 0) (holding staging)) :=
  claimed_claimsOk ⟨by decide +kernel, by decide +kernel⟩

/-- A MIRROR; no staged copy; a LINE claim; a pinned current copy; and an unpinned one. -/
theorem witness_CommitMakesTheStagedCopyCurrent :
    ((holding mirror).Takes (.commit 0x00#8) ∧ ((holding mirror).entry 0).state.working = true ∧
      ClaimsOk (holding mirror) ∧ ((holding mirror).entry 0).role = .mirror) ∧
    ((holding source).Takes (.commit 0x00#8) ∧ ClaimsOk (holding source) ∧
      ((holding source).entry 0).staged = none) ∧
    ((claimedBy (.heldLine 0 9 500) (holding staging)).Takes (.commit 0x00#8) ∧
      ClaimsOk (claimedBy (.heldLine 0 9 500) (holding staging)) ∧ ((holding staging).entry 0).staged ≠ none ∧
      ((claimedBy (.heldLine 0 9 500) (holding staging)).claims.slot 0).lineClaims 0 = true) ∧
    ((holding staging).Takes (.commit 0x00#8) ∧ ClaimsOk (holding staging) ∧
      ((holding staging).entry 0).state.working = true ∧ ((holding staging).entry 0).role = .source ∧
      ((holding staging).entry 0).staged = some [1] ∧ ((holding staging).entry 0).current = some [0] ∧
      (∀ k : SlotNo, ((holding staging).claims.slot k).lineClaims 0 = false) ∧
      (holding staging).table.pin = none ∧
      (pinned .current .frame (holding staging)).table.pin = some ⟨0, .current, .frame⟩) :=
  ⟨⟨takes_idle rfl rfl, by decide +kernel, unclaimed_claimsOk _, by decide +kernel⟩,
    ⟨takes_idle rfl rfl, unclaimed_claimsOk _, by decide +kernel⟩,
    ⟨takes_idle rfl rfl, heldLine_claimsOk, by decide +kernel, by decide +kernel⟩,
    ⟨takes_idle rfl rfl, unclaimed_claimsOk _, by decide +kernel, by decide +kernel, by decide +kernel,
      by decide +kernel, by decide +kernel, rfl, rfl⟩⟩

theorem witness_DiscardFreesTheStagedCopy :
    ((holding mirror).Takes (.discard 0x00#8) ∧ ((holding mirror).entry 0).state.working = true ∧
      ((holding mirror).entry 0).role = .mirror) ∧
    ((holding source).Takes (.discard 0x00#8) ∧ ((holding source).entry 0).staged = none) ∧
    ((holding staging).Takes (.discard 0x00#8) ∧ ((holding staging).entry 0).state.working = true ∧
      ((holding staging).entry 0).role = .source ∧ ((holding staging).entry 0).staged = some [1]) :=
  ⟨⟨takes_idle rfl rfl, by decide +kernel, by decide +kernel⟩, ⟨takes_idle rfl rfl, by decide +kernel⟩,
    ⟨takes_idle rfl rfl, by decide +kernel, by decide +kernel, by decide +kernel⟩⟩

/-- Counts 0, 33 and 32, the end of the record, and a record with no data. -/
theorem witness_ReadReturnsTheCurrentCopy :
    (holding longSource).Takes (.read 0x00#8 0x20#8 0x20#8) ∧
    ((holding longSource).entry 0).state.working = true ∧ (0x00#8 : Byte).toNat = 0 ∧ 32 < (0x21#8 : Byte).toNat ∧
    ((holding longSource).entry 0).length < (0x21#8 : Byte).toNat + (0x20#8 : Byte).toNat ∧
    (1 ≤ (0x20#8 : Byte).toNat ∧ (0x20#8 : Byte).toNat ≤ 32 ∧
      (0x20#8 : Byte).toNat + (0x20#8 : Byte).toNat ≤ ((holding longSource).entry 0).length ∧
      ((holding longSource).entry 0).current = some [0, 1, 2, 3] ∧ EntryCopiesOk ((holding longSource).entry 0)) ∧
    ((holding mirror).Takes (.read 0x00#8 0x0F#8 0x01#8) ∧ ((holding mirror).entry 0).current = none) :=
  ⟨takes_idle rfl rfl, by decide +kernel, by decide, by decide, by decide +kernel,
    ⟨by decide, by decide, by decide +kernel, by decide +kernel, longSource_copiesOk⟩,
    takes_idle rfl rfl, by decide +kernel⟩

theorem witness_HostRetireTearsTheEntryDown :
    (holding staging).Takes (.retire 0x00#8) ∧ ((holding staging).entry 0).state.working = true ∧
    (holding staging).table.inFlight ≠ some 0 ∧ IndexOk (holding staging) :=
  ⟨takes_idle rfl rfl, by decide +kernel, by decide +kernel, holding_indexOk rfl⟩

theorem witness_HostRetireInFlightOrEnded :
    ((inFlight .space .probe 0 5 (holding source)).Takes (.retire 0x00#8) ∧
      ((inFlight .space .probe 0 5 (holding source)).entry 0).state.working = true ∧
      (inFlight .space .probe 0 5 (holding source)).table.inFlight = some 0) ∧
    ∀ p : EntryState, p = .retiring ∨ p = .ended →
      (holding { source with state := p }).Takes (.retire 0x00#8) ∧
        ((holding { source with state := p }).entry 0).state = p :=
  ⟨⟨takes_idle rfl rfl, by decide +kernel, rfl⟩, fun _ _ => ⟨takes_idle rfl rfl, by simp [holding_entry]⟩⟩

/-- A CLAIM frame of tag 9 in flight, and the reservation it holds. -/
def claiming (renewal : Bool) : State :=
  claimedBy (.reserved 0 9 500 renewal) (inFlight .space .claim 9 2 (holding source))

theorem claiming_claimsOk (renewal : Bool) : ClaimsOk (claiming renewal) :=
  have he : (claiming renewal).entry 0 = source := by cases renewal <;> decide +kernel
  claimsOk_of_slot (.reserved 0 9 500 renewal) rfl
    ⟨by rw [he]; rfl, by rw [he]; rfl, by decide, by decide, .inl rfl, rfl, rfl, rfl⟩

/-- Eight SOURCE records held by the host, and a ninth that is not. -/
def nineSources : State :=
  { State.reset with
    table := { TableController.reset with entries := Vector.replicate 128 source }
    claims := ⟨⟨#[.heldHost 1, .heldHost 2, .heldHost 3, .heldHost 4, .heldHost 5, .heldHost 6, .heldHost 7,
      .heldHost 8], rfl⟩, 60000⟩ }

theorem nineSources_claimsOk : ClaimsOk nineSources := by
  have hs : ∀ k : SlotNo, nineSources.claims.slot k = .heldHost ⟨k.val + 1, by omega⟩ := by decide +kernel
  have he : ∀ e : EntryNo, nineSources.entry e = source := fun e => by
    simp [nineSources, State.entry, TableController.entry]
  refine ⟨fun k => ?_, fun e j k hj hk => ?_, by decide, fun _ h => nomatch h⟩
  · rw [hs]
    exact ⟨by rw [he]; rfl, by rw [he]; rfl⟩
  · rw [hs] at hj hk
    have := (of_decide_eq_true hj).trans (of_decide_eq_true hk).symm
    exact Fin.ext (Nat.succ.inj (congrArg Fin.val this))

/-- A MIRROR, and the five cases of a SOURCE. -/
theorem witness_HoldFollowsItsTable :
    ((holding mirror).Takes (.hold 0x00#8) ∧ ((holding mirror).entry 0).state.working = true ∧
      ClaimsOk (holding mirror) ∧ ((holding mirror).entry 0).role = .mirror) ∧
    ((claimedBy (.heldHost 0) (holding staging)).Takes (.hold 0x00#8) ∧
      ClaimsOk (claimedBy (.heldHost 0) (holding staging)) ∧
      (claimedBy (.heldHost 0) (holding staging)).claims.slot 0 = .heldHost 0) ∧
    ((claiming true).Takes (.hold 0x00#8) ∧ ClaimsOk (claiming true) ∧
      (claiming true).claims.slot 0 = .reserved 0 9 500 true) ∧
    ((claimedBy (.heldLine 0 9 500) (holding staging)).Takes (.hold 0x00#8) ∧
      ClaimsOk (claimedBy (.heldLine 0 9 500) (holding staging)) ∧
      (claimedBy (.heldLine 0 9 500) (holding staging)).claims.slot 0 = .heldLine 0 9 500) ∧
    ((holding source).Takes (.hold 0x00#8) ∧ ClaimsOk (holding source) ∧
      ((holding source).entry 0).role = .source ∧
      (∀ k : SlotNo, ((holding source).claims.slot k).names 0 = false) ∧ (holding source).claims.slot 0 = .free ∧
      ∀ j : SlotNo, j < 0 → (holding source).claims.slot j ≠ .free) ∧
    (nineSources.Takes (.hold 0x00#8) ∧ ClaimsOk nineSources ∧ (nineSources.entry 0).state.working = true ∧
      (nineSources.entry 0).role = .source ∧ (∀ k : SlotNo, (nineSources.claims.slot k).names 0 = false) ∧
      ∀ k : SlotNo, nineSources.claims.slot k ≠ .free) :=
  ⟨⟨takes_idle rfl rfl, by decide +kernel, unclaimed_claimsOk _, by decide +kernel⟩,
    ⟨takes_idle rfl rfl, heldHost_claimsOk, by decide +kernel⟩,
    ⟨takes_idle rfl rfl, claiming_claimsOk _, by decide +kernel⟩,
    ⟨takes_idle rfl rfl, heldLine_claimsOk, by decide +kernel⟩,
    ⟨takes_idle rfl rfl, unclaimed_claimsOk _, by decide +kernel, by decide +kernel, by decide +kernel,
      by decide +kernel⟩,
    ⟨takes_idle rfl rfl, nineSources_claimsOk, by decide +kernel, by decide +kernel, by decide +kernel,
      by decide +kernel⟩⟩

/-- A MIRROR, and the cases of a SOURCE, with and without force. -/
theorem witness_LetGoFollowsItsTable :
    ((holding mirror).Takes (.letGo 0x00#8 0x01#8) ∧ ClaimsOk (holding mirror) ∧
      ((holding mirror).entry 0).role = .mirror) ∧
    ((holding source).Takes (.letGo 0x00#8 0x01#8) ∧ ClaimsOk (holding source) ∧
      ∀ k : SlotNo, ((holding source).claims.slot k).names 0 = false) ∧
    ((claimedBy (.heldHost 0) (holding staging)).Takes (.letGo 0x00#8 0x00#8) ∧
      ClaimsOk (claimedBy (.heldHost 0) (holding staging)) ∧
      (claimedBy (.heldHost 0) (holding staging)).claims.slot 0 = .heldHost 0) ∧
    ((claimedBy (.heldLine 0 9 500) (holding staging)).Takes (.letGo 0x00#8 0x00#8) ∧
      (claimedBy (.heldLine 0 9 500) (holding staging)).Takes (.letGo 0x00#8 0x01#8) ∧
      ClaimsOk (claimedBy (.heldLine 0 9 500) (holding staging)) ∧
      (claimedBy (.heldLine 0 9 500) (holding staging)).claims.slot 0 = .heldLine 0 9 500) ∧
    ∀ renewal : Bool, (claiming renewal).Takes (.letGo 0x00#8 0x01#8) ∧ ClaimsOk (claiming renewal) ∧
      ((claiming renewal).entry 0).state.working = true ∧
      (claiming renewal).claims.slot 0 = .reserved 0 9 500 renewal :=
  ⟨⟨takes_idle rfl rfl, unclaimed_claimsOk _, by decide +kernel⟩,
    ⟨takes_idle rfl rfl, unclaimed_claimsOk _, by decide +kernel⟩,
    ⟨takes_idle rfl rfl, heldHost_claimsOk, by decide +kernel⟩,
    ⟨takes_idle rfl rfl, takes_idle rfl rfl, heldLine_claimsOk, by decide +kernel⟩,
    fun renewal => ⟨takes_idle rfl rfl, claiming_claimsOk _, by cases renewal <;> decide +kernel,
      by cases renewal <;> decide +kernel⟩⟩


/-! ## Witnesses: modes, the Host Port and time -/

/-- The largest and smallest values CONFIGURE takes, and the first ones beyond them. -/
theorem witness_ConfigureWritesAllFourValues :
    (State.reset.Takes (.configure 0x03#8 0x0FA0#16 0xFF#8 0xEA60#16) ∧
      State.reset.Takes (.configure 0x00#8 0x0028#16 0x00#8 0x000A#16) ∧ State.reset.line.mode = .offline ∧
      (0x0FA0#16 : Half).toNat = 4000 ∧ (0xEA60#16 : Half).toNat = 60000 ∧ (0x0028#16 : Half).toNat = 40 ∧
      (0x000A#16 : Half).toNat = 10) ∧
    ((listening .waiting State.reset).Takes (.configure 0x00#8 0x0028#16 0x00#8 0x000A#16) ∧
      (listening .waiting State.reset).line.mode ≠ .offline) ∧
    (3 < (0x04#8 : Byte).toNat ∧ (0x0027#16 : Half).toNat < 40 ∧ 4000 < (0x0FA1#16 : Half).toNat ∧
      (0x0009#16 : Half).toNat < 10 ∧ 60000 < (0xEA61#16 : Half).toNat) :=
  ⟨⟨takes_idle rfl rfl, takes_idle rfl rfl, rfl, by decide, by decide, by decide, by decide⟩,
    ⟨takes_idle rfl rfl, by decide⟩, by decide⟩

/-- The part in DORMANT. -/
def dormant : State := { holding source with line := { LineUnit.reset with mode := .dormant } }

/-- The part in LISTEN with a SERVE sequence open on a record of four segments. -/
def serving : State :=
  (listening .waiting (pinned .current .sequence (holding longSource))).setSeq
    (some ⟨.serve, 0x105#9, 0, 1, none, some 400⟩)

theorem dormant_lineOk : LineOk dormant := by constructor <;> decide +kernel

theorem serving_lineOk : LineOk serving := by constructor <;> decide +kernel

theorem inSpace_lineOk : LineOk (inFlight .space .probe 0 5 (holding source)) := by constructor <;> decide +kernel

theorem offline_lineOk : LineOk (holding source) := by constructor <;> decide +kernel

theorem witness_SetModeFollowsItsTable :
    ((holding source).Takes (.setMode 0x03#8) ∧ LineOk (holding source) ∧ 3 ≤ (0x03#8 : Byte).toNat) ∧
    (dormant.Takes (.setMode 0x02#8) ∧ LineOk dormant ∧ (0x02#8 : Byte) = dormant.line.mode.code ∧
      dormant.line.mode ≠ .rousing) ∧
    ((holding source).Takes (.setMode 0x01#8) ∧ (holding source).line.mode = .offline) ∧
    (dormant.Takes (.setMode 0x01#8) ∧ dormant.line.mode = .dormant) ∧
    ((inFlight .space .probe 0 5 (holding source)).Takes (.setMode 0x02#8) ∧
      LineOk (inFlight .space .probe 0 5 (holding source)) ∧
      (inFlight .space .probe 0 5 (holding source)).line.mode = .listen) ∧
    (serving.Takes (.setMode 0x00#8) ∧ serving.Takes (.setMode 0x02#8) ∧ LineOk serving ∧
      serving.line.mode = .listen ∧ serving.line.phase.inFlight = false ∧ serving.line.seq.isSome = true) :=
  ⟨⟨takes_idle rfl rfl, offline_lineOk, by decide⟩, ⟨takes_idle rfl rfl, dormant_lineOk, rfl, by decide⟩,
    ⟨takes_idle rfl rfl, rfl⟩, ⟨takes_idle rfl rfl, rfl⟩, ⟨takes_idle rfl rfl, inSpace_lineOk, rfl⟩,
    ⟨takes_idle rfl rfl, takes_idle rfl rfl, serving_lineOk, rfl, rfl, rfl⟩⟩

/-- SET_MODE OFFLINE taken in ANSWERING, before or after a readback mismatch. -/
def goingOffline (mismatch : Bool) : State :=
  let s := waitingFor .offline (inFlight .answering .probe 0 5 (holding source))
  { s with line := { s.line with collided := mismatch } }

/-- Each action in SPACE; a STORE received; SET_MODE OFFLINE waiting in ANSWERING, without and with a mismatch. -/
theorem witness_SetModeOfflineAbandonsTheFrame :
    ((inFlight .answering .probe 0 5 (holding source)).Takes (.setMode 0x00#8) ∧
      (inFlight .answering .probe 0 5 (holding source)).line.phase = .answering) ∧
    (∀ (p : Phase) (a : Action), p = .space ∨ p = .receiving →
      (inFlight p a 0 5 (holding source)).Takes (.setMode 0x00#8) ∧
        (inFlight p a 0 5 (holding source)).line.phase = p ∧
        (inFlight p a 0 5 (holding source)).line.frame.asking = false ∧
        (inFlight p a 0 5 (holding source)).line.mode = .listen ∧
        (inFlight p a 0 5 (holding source)).line.frame.entry = some 0 ∧
        (inFlight p a 0 5 (holding source)).line.frame.action = some a ∧
        (inFlight p a 0 5 (holding source)).line.seq = none ∧ ClaimsOk (inFlight p a 0 5 (holding source))) ∧
    (∀ mismatch : Bool, (goingOffline mismatch).host.work = some .offline ∧
      (goingOffline mismatch).line.phase = .answering ∧ (goingOffline mismatch).line.collided = mismatch ∧
      (goingOffline mismatch).line.mode = .listen ∧ (goingOffline mismatch).line.frame.entry = some 0 ∧
      ClaimsOk (goingOffline mismatch) ∧ ((goingOffline mismatch).entry 0).state.working = true) :=
  ⟨⟨takes_idle rfl rfl, rfl⟩,
    fun _ _ _ => ⟨takes_idle rfl rfl, rfl, rfl, rfl, rfl, rfl, rfl, freeClaims_claimsOk rfl⟩,
    fun m => ⟨rfl, rfl, rfl, rfl, rfl, freeClaims_claimsOk rfl, by cases m <;> decide +kernel⟩⟩

/-- ROUSING, with the pulse under way or ended. -/
def rousing (d : TxdDrive) : State :=
  waitingFor .rouse { State.reset with line := { LineUnit.reset with mode := .rousing, txd := d } }

theorem witness_RouseRunsToListen :
    (State.reset.Takes .rouse ∧ State.reset.line.mode ≠ .dormant) ∧
    (dormant.Takes .rouse ∧ dormant.line.mode = .dormant) ∧
    ((rousing .pulse).line.mode = .rousing ∧ (rousing .pulse).line.txd = .pulse) ∧
    ((rousing .released).line.mode = .rousing ∧ (rousing .released).line.txd = .released) :=
  ⟨⟨takes_idle rfl rfl, by decide⟩, ⟨takes_idle rfl rfl, rfl⟩, ⟨rfl, rfl⟩, ⟨rfl, rfl⟩⟩

theorem witness_DormantIsLeftByARouseOrAStuckLine :
    dormant.line.mode = .dormant ∧ (after .rouseDetected dormant).line.mode = .dormant ∧
      (after .rouseDetected dormant).line.rouseSeen = true := ⟨rfl, rfl, rfl⟩

/-- A transaction begun from IDLE, and one begun while a command is outstanding. -/
def selected : State := after .csFall State.reset

def busy : State := after .csFall (waitingFor .rouse (rousing .pulse))

theorem selected_hostOk : HostOk selected := by constructor <;> decide +kernel

theorem busy_hostOk : HostOk busy := by constructor <;> decide +kernel

/-- The frames of R167's cases, a parameter count of 40 and of 41 among them. -/
theorem witness_TransactionsAreJudged :
    (State.reset.host.csLow = false ∧ State.reset.host.stage ≠ .held ∧ State.reset.host.state = .idle) ∧
    ((rousing .pulse).host.csLow = false ∧ (rousing .pulse).host.state = .working) ∧
    (selected.host.csLow = true ∧ HostOk selected ∧ selected.host.state = .shifting ∧
      selected.host.sdo = some [0x01#8, 0x00#8]) ∧
    (busy.host.csLow = true ∧ HostOk busy ∧ busy.host.state = .workingBusy) ∧
    40 < (0x29#8 : Byte).toNat ∧ (0x28#8 : Byte).toNat ≤ 40 ∧ (0x28#8 : Byte).toNat ≤ (List.replicate 40 0x00#8).length ∧
    decodeCommand 0x04#8 ((List.replicate 40 0x00#8).take (0x28#8 : Byte).toNat) = .badCommand ∧
    decodeCommand 0x17#8 ((List.replicate 40 0x00#8).take (0x28#8 : Byte).toNat) = .badArgument ∧
    decodeCommand 0x21#8 ([0x00#8, 0x02#8].take (0x02#8 : Byte).toNat) = .command (.letGo 0x00#8 0x02#8) ∧
    decodeCommand 0x13#8 ([0x7F#8].take (0x01#8 : Byte).toNat) = .command (.commit 0x7F#8) :=
  ⟨⟨rfl, by decide, rfl⟩, ⟨rfl, rfl⟩, ⟨rfl, selected_hostOk, rfl, rfl⟩, ⟨rfl, busy_hostOk, rfl⟩, by decide +kernel⟩

theorem witness_ResetsLeaveTheResetState :
    ((after .powerOn State.reset).host.stage = .held ∧ (after .powerOn State.reset).host.csLow = false) ∧
    ((after .pinReset selected).host.stage = .held ∧ (after .pinReset selected).host.csLow = true ∧
      (after .pinReset selected).host.state = .initialising) ∧
    (after .resetRelease (after .powerOn State.reset)).host.stage = .initialising := ⟨⟨rfl, rfl⟩, ⟨rfl, rfl, rfl⟩, rfl⟩

theorem witness_RestartResetsEveryBlock :
    ((inFlight .answering .probe 0 5 (holding source)).Takes .restart ∧
      (inFlight .answering .probe 0 5 (holding source)).line.phase = .answering) ∧
    ((inFlight .space .probe 0 5 (holding source)).Takes .restart ∧
      (inFlight .space .probe 0 5 (holding source)).line.phase ≠ .answering) ∧
    (waitingFor .restart (inFlight .answering .probe 0 5 (holding source))).host.work = some .restart :=
  ⟨⟨takes_idle rfl rfl, rfl⟩, ⟨takes_idle rfl rfl, by decide⟩, rfl⟩

/-- An age at its limit, an age one below its limit and two below it, and an age at the stop. -/
theorem witness_TickAgesAndExpires :
    (((holding { source with age := 100 }).entry 0).state = .live ∧
      ((holding { source with age := 100 }).entry 0).limit ≠ 0 ∧
      ((holding { source with age := 100 }).entry 0).limit ≤ ((holding { source with age := 100 }).entry 0).age ∧
      ((holding { source with age := 100 }).entry 0).amended = false ∧
      ((holding { source with age := 100, amended := true }).entry 0).amended = true) ∧
    (holding source).host.stage = .complete ∧ (holding source).line.seq = none ∧
    ((holding source).entry 1).state = .vacant ∧
    (((holding source).entry 0).state = .live ∧ ((holding source).entry 0).limit ≠ 0 ∧
      ((holding source).entry 0).limit ≤ min (((holding source).entry 0).age + 1) 65535 ∧
      ((holding source).attention.record 0).posting ≠ .closed ∧
      ((holding source).attention.record 0).mask.getLsbD 1 = true ∧
      ((holding source).attention.record 0).causes = 0#13) ∧
    (((holding { source with age := 98 }).entry 0).state = .live ∧
      min (((holding { source with age := 98 }).entry 0).age + 1) 65535 <
        ((holding { source with age := 98 }).entry 0).limit) ∧
    (((holding { source with state := .stale, age := 65535 }).entry 0).state = .stale) ∧
    (((holding { source with state := .retiring }).entry 0).state = .retiring ∧
      ((holding { source with state := .retiring }).entry 0).current.isSome = true) ∧
    (((holding { mirror with state := .retiring }).entry 0).state = .retiring ∧
      ((holding { mirror with state := .retiring }).entry 0).current = none) := by decide +kernel

/-- Leases of 0, 1 and 2 ms. -/
theorem witness_TickRunsLeasesDown :
    (claimedBy (.heldLine 0 9 0) (holding source)).claims.slot 0 = .heldLine 0 9 0 ∧
    (claimedBy (.heldLine 0 9 1) (holding source)).host.stage = .complete ∧
    (claimedBy (.heldLine 0 9 1) (holding source)).claims.slot 0 = .heldLine 0 9 1 ∧
    ((claimedBy (.heldLine 0 9 1) (holding source)).attention.record 0).posting ≠ .closed ∧
    ((claimedBy (.heldLine 0 9 1) (holding source)).attention.record 0).mask.getLsbD 11 = true ∧
    (claimedBy (.heldLine 0 9 2) (holding source)).claims.slot 0 = .heldLine 0 9 2 := by decide +kernel

/-- LISTEN in a phase, with a limit of 1 s, the idle count given, and an expiry pending or not. -/
def idling (p : Phase) (count : Nat) (waits : Bool) : State :=
  { holding source with line := { LineUnit.reset with
      mode := .listen, phase := p, idleLimit := 1, idle := some count, idlePending := waits } }

/-- A tick before the limit and one at it; a count at its limit; a deferred expiry. -/
theorem witness_IdleLimitLeadsToDormant :
    (∀ p : Phase, (idling p 999 false).host.stage = .complete ∧ (idling p 999 false).line.mode = .listen ∧
      (idling p 999 false).line.phase = p ∧ (idling p 999 false).line.idleLimit ≠ 0 ∧
      (idling p 999 false).line.idle = some 999 ∧ 999 + 1 = 1000 * (idling p 999 false).line.idleLimit ∧
      998 + 1 ≠ 1000 * (idling p 998 false).line.idleLimit) ∧
    (∀ p : Phase, (idling p 1000 false).line.idle = some (1000 * (idling p 1000 false).line.idleLimit) ∧
      (idling p 1000 false).line.idlePending = false) ∧
    (∀ p : Phase, (idling p 1000 true).line.mode = .listen ∧ (idling p 1000 true).line.phase = p ∧
      (idling p 1000 true).line.idlePending = true ∧ (idling p 1000 true).line.breakSeen = false) ∧
    serving.line.seq.isSome = true :=
  ⟨fun _ => ⟨rfl, rfl, rfl, by simp [idling], rfl, rfl, by simp [idling]⟩, fun _ => ⟨rfl, rfl⟩,
    fun _ => ⟨rfl, rfl, rfl, rfl⟩, rfl⟩

/-- The tick at the idle limit in WAITING, with a SERVE sequence open and its record's SEG_BROKEN kept. -/
theorem witness_TickAtTheIdleLimit :
    let s := { serving with line := { serving.line with idleLimit := 1, idle := some 999 } };
    s.host.stage = .complete ∧ s.idleExpiryDue ∧ s.line.seq.isSome = true ∧
      (s.attention.record 0).posting ≠ .closed ∧ (s.attention.record 0).mask.getLsbD 7 = true ∧
      (s.attention.record 0).causes = 0#13 ∧ (∀ p : Pin, s.table.pin = some p → p.entry = 0) :=
  ⟨rfl, ⟨rfl, by decide, ⟨999, rfl, rfl⟩, .inl rfl⟩, rfl, by decide +kernel, by decide +kernel, by decide +kernel,
    fun p hp => by cases hp; rfl⟩

/-- A MIRROR of three segments with a staged copy, and its sequence open below the segment given. -/
def assembled : Entry :=
  { mirror with state := .live, length := 40, current := some [0, 1, 2], staged := some [3, 4, 5] }

def assembling (next : Nat) (hold : Option Nat) : State :=
  (listening .waiting (holding assembled)).setSeq (some ⟨.assemble, 0x105#9, 0, next, some 7, hold⟩)

theorem witness_SegmentHoldExpiryClosesTheSequence :
    serving.line.seq = some ⟨.serve, 0x105#9, 0, 1, none, some 400⟩ ∧
    (assembling 1 (some 40)).line.seq = some ⟨.assemble, 0x105#9, 0, 1, some 7, some 40⟩ ∧
      ((assembling 1 (some 40)).entry 0).staged = some [3, 4, 5] ∧
    (assembling 1 none).line.seq = some ⟨.assemble, 0x105#9, 0, 1, some 7, none⟩ := by decide +kernel


/-! ## Witnesses: the line -/

theorem witness_RunsMoveThePhase :
    (∀ p : Phase, (listening p (holding source)).line.mode = .listen ∧ (listening p (holding source)).line.phase = p ∧
      (listening p (holding source)).line.breakSeen = false ∧ (listening p (holding source)).line.idlePending = false ∧
      (listening p (holding source)).line.assembling = false ∧
      (after (.startBitSample true) (listening .receiving (holding source))).line.assembling = true) ∧
    (after .breakRecognised (listening .inBreak (holding source))).line.breakSeen = true ∧
    (after .breakRecognised (listening .inBreak (holding source))).line.phase = .inBreak :=
  ⟨fun _ => ⟨rfl, rfl, rfl, rfl, rfl, rfl⟩, rfl, rfl⟩

/-- A STORE being received, and a FETCH that a MIRROR of 16 bytes captures. -/
def storing : State := inFlight .receiving .store 0 17 (holding source)

def capturing : State := inFlight .receiving .fetch 0 18 (holding mirror)

/-- The capture of segment 1 of three, which continues an open sequence. -/
def continuing : State :=
  (inFlight .receiving .fetch 1 18 (holding assembled)).setSeq (some ⟨.assemble, 0x105#9, 0, 1, some 7, none⟩)

/-- Every phase with no run from before LISTEN, and WAITING with one; a header with a SERVE sequence open; a PROBE in the
space; a STORE and a capture, and the continuation of a capture. -/
theorem witness_BreakBeginsANewFrame :
    (∀ p : Phase, (listening p (holding source)).line.mode = .listen ∧ (listening p (holding source)).line.phase = p ∧
      (listening p (holding source)).line.breakSeen = false ∧
      (listening p (holding source)).line.runBefore = false) ∧
    ((after (.setMode 0x01#8) State.reset).line.mode = .listen ∧
      (after (.setMode 0x01#8) State.reset).line.phase = .waiting ∧
      (after (.setMode 0x01#8) State.reset).line.runBefore = true) ∧
    ((listening .header serving).line.phase = .header ∧ (listening .header serving).line.seq.isSome = true) ∧
    ((inFlight .space .probe 0 5 (holding source)).line.phase = .space ∧
      (inFlight .space .probe 0 5 (holding source)).line.frame.asking = false ∧
      ((inFlight .space .probe 0 5 (holding source)).entry 0).role = .source ∧
      ClaimsOk (inFlight .space .probe 0 5 (holding source))) ∧
    (storing.line.mode = .listen ∧ storing.line.phase = .receiving ∧ storing.line.frame.entry = some 0 ∧
      storing.line.frame.action = some .store ∧ (storing.entry 0).state.working = true ∧
      (storing.entry 0).role = .source ∧ ClaimsOk storing) ∧
    (capturing.line.phase = .receiving ∧ capturing.line.frame.action = some .fetch ∧
      (capturing.entry 0).role = .mirror ∧ (capturing.entry 0).state.working = true ∧ ClaimsOk capturing) ∧
    (continuing.line.phase = .receiving ∧ continuing.line.frame.action = some .fetch ∧
      (continuing.entry 0).role = .mirror ∧ (continuing.entry 0).state.working = true ∧ ClaimsOk continuing ∧
      continuing.line.seq.isSome = true ∧ (continuing.entry 0).staged = some [3, 4, 5]) :=
  ⟨fun _ => ⟨rfl, rfl, rfl, rfl⟩, by decide +kernel, ⟨rfl, rfl⟩,
    ⟨rfl, rfl, by decide +kernel, freeClaims_claimsOk rfl⟩,
    ⟨rfl, rfl, rfl, rfl, by decide +kernel, by decide +kernel, freeClaims_claimsOk rfl⟩,
    ⟨rfl, rfl, by decide +kernel, by decide +kernel, freeClaims_claimsOk rfl⟩,
    ⟨rfl, rfl, by decide +kernel, by decide +kernel, freeClaims_claimsOk rfl, rfl, by decide +kernel⟩⟩

theorem headed_awaitsCheck (h : Handle) (a : BitVec 3) (t : Tag) (s : State) : (headed h a t s).awaitsCheck h a t :=
  ⟨rfl, rfl, rfl, rfl⟩

/-- A HEADER with nothing received, with SYNC, with H1, and with H2, under either action field that names no action. -/
theorem witness_HeaderCharactersAreKeptOrFault :
    ((listening .header (holding source)).line.mode = .listen ∧
      (listening .header (holding source)).line.phase = .header ∧
      (listening .header (holding source)).line.header = [] ∧
      (listening .header (holding source)).line.idlePending = false ∧ (0xC4#8 : Byte) ≠ 0xC5#8) ∧
    (let s := after (.headerCharacter 0xC5#8 false) (listening .header (holding source));
      s.line.header.length = 1 ∧ (after (.headerCharacter 0x05#8 false) s).line.header.length = 2) ∧
    ((headed 0x105#9 6#3 0#4 (holding source)).awaitsCheck 0x105#9 6#3 0#4 ∧
      (headed 0x105#9 7#3 15#4 (holding source)).awaitsCheck 0x105#9 7#3 15#4 ∧ 6 ≤ (6#3).toNat ∧
      (headed 0x105#9 6#3 0#4 (holding source)).line.header =
        [0xC5#8, encodeH1 0x105#9, encodeH2 0x105#9 6#3 0#4] ∧
      (headed 0x105#9 6#3 0#4 (holding source)).line.check ≠ 0x00#8) ∧
    (listening .header serving).line.seq = some ⟨.serve, 0x105#9, 0, 1, none, some 400⟩ :=
  ⟨by decide +kernel, by decide +kernel, ⟨headed_awaitsCheck .., headed_awaitsCheck .., by decide, rfl,
    by decide +kernel⟩, rfl⟩

/-- A header of any kind meets the sequence that is open, or none. -/
theorem header_meets (s : State) (h : Handle) (a : Action) (t : Tag) :
    ∃ (base : State) (posted : AttentionUnit), MeetsSequence s h a t base posted :=
  ⟨_, _, s.meetSequence_meets h a t⟩

/-- The rows that skip: no record, with a SERVE sequence open; a segment beyond the last; a SOURCE in DRAFT; a later
segment of a MIRROR with an ASSEMBLE sequence open; a STORE to a record of more than 16 bytes; and an action other than
FETCH on a MIRROR. The sequence is met as `header_meets` shows. -/
theorem witness_SkippedHeadersFollowThePathTable :
    ((headed 0x1FF#9 Action.fetch.code 0#4 serving).awaitsCheck 0x1FF#9 Action.fetch.code 0#4 ∧
      (headed 0x1FF#9 Action.fetch.code 0#4 serving).line.seq.isSome = true ∧
      serving.table.lookup 0x1FF#9 = none) ∧
    ((headed 0x105#9 Action.fetch.code 1#4 (holding source)).awaitsCheck 0x105#9 Action.fetch.code 1#4 ∧
      (headed 0x105#9 Action.fetch.code 1#4 (holding source)).table.lookup 0x105#9 = some 0 ∧
      ((holding source).entry 0).segments ≤ (1#4 : Tag).toNat ∧ (holding source).line.idlePending = false) ∧
    (((holding { source with state := .draft }).entry 0).state = .draft ∧
      (0#4 : Tag).toNat < ((holding { source with state := .draft }).entry 0).segments) ∧
    ((headed 0x105#9 Action.fetch.code 2#4 (assembling 1 (some 40))).awaitsCheck 0x105#9 Action.fetch.code 2#4 ∧
      (2#4 : Tag).toNat < ((assembling 1 (some 40)).entry 0).segments ∧
      ((assembling 1 (some 40)).entry 0).role = .mirror ∧ (2#4 : Tag) ≠ 0#4 ∧
      (assembling 1 (some 40)).line.seq = some ⟨.assemble, 0x105#9, 0, 1, some 7, some 40⟩ ∧
      ¬ ((0x105#9 : Handle) = 0x105#9 ∧ 1 = (2#4 : Tag).toNat)) ∧
    ((headed 0x105#9 Action.store.code 0#4 (holding longSource)).awaitsCheck 0x105#9 Action.store.code 0#4 ∧
      16 < ((holding longSource).entry 0).length ∧ ((holding longSource).entry 0).role = .source) ∧
    ((headed 0x105#9 Action.claim.code 1#4 (holding mirror)).awaitsCheck 0x105#9 Action.claim.code 1#4 ∧
      Action.claim ≠ .fetch ∧ ((holding mirror).entry 0).role = .mirror) :=
  ⟨⟨headed_awaitsCheck .., by decide +kernel⟩,
    ⟨headed_awaitsCheck .., by decide +kernel⟩, by decide +kernel, ⟨headed_awaitsCheck .., by decide +kernel⟩,
    ⟨headed_awaitsCheck .., by decide +kernel⟩, ⟨headed_awaitsCheck .., by decide +kernel⟩⟩

/-- A STORE to the longest record that takes one, a first segment, with no sequence and in an ASSEMBLE sequence that it
closes, and a continuation to the last segment. The sequence is met as `header_meets` shows. -/
theorem witness_ReceivedHeadersStartAReception :
    ((headed 0x105#9 Action.store.code 0#4 (holding source)).awaitsCheck 0x105#9 Action.store.code 0#4 ∧
      (headed 0x105#9 Action.store.code 0#4 (holding source)).table.lookup 0x105#9 = some 0 ∧
      ((holding source).entry 0).state.working = true ∧ ((holding source).entry 0).role = .source ∧
      ((holding source).entry 0).length ≤ 16 ∧ (holding source).line.seq = none) ∧
    ((headed 0x105#9 Action.fetch.code 0#4 (holding mirror)).awaitsCheck 0x105#9 Action.fetch.code 0#4 ∧
      (headed 0x105#9 Action.fetch.code 0#4 (holding mirror)).table.lookup 0x105#9 = some 0 ∧
      ((holding mirror).entry 0).state.working = true ∧ ((holding mirror).entry 0).role = .mirror ∧
      (0#4 : Tag).toNat < ((holding mirror).entry 0).segments ∧ (holding mirror).line.seq = none) ∧
    ((headed 0x105#9 Action.fetch.code 0#4 (assembling 2 (some 40))).awaitsCheck 0x105#9 Action.fetch.code 0#4 ∧
      (0#4 : Tag).toNat < ((assembling 2 (some 40)).entry 0).segments) ∧
    ((headed 0x105#9 Action.fetch.code 2#4 (assembling 2 (some 40))).awaitsCheck 0x105#9 Action.fetch.code 2#4 ∧
      (headed 0x105#9 Action.fetch.code 2#4 (assembling 2 (some 40))).table.lookup 0x105#9 = some 0 ∧
      ((assembling 2 (some 40)).entry 0).state.working = true ∧ ((assembling 2 (some 40)).entry 0).role = .mirror ∧
      (2#4 : Tag).toNat < ((assembling 2 (some 40)).entry 0).segments ∧
      (assembling 2 (some 40)).line.seq = some ⟨.assemble, 0x105#9, 0, 2, some 7, some 40⟩) :=
  ⟨⟨headed_awaitsCheck .., by decide +kernel⟩, ⟨headed_awaitsCheck .., by decide +kernel⟩,
    ⟨headed_awaitsCheck .., by decide +kernel⟩, ⟨headed_awaitsCheck .., by decide +kernel⟩⟩

/-- A header for the sample record keeps the Claim Table's invariant, whatever slot 0 holds of its record. -/
theorem headed_claimsOk {c : Slot} (a : BitVec 3) (t : Tag)
    (ok : slotOk (headed 0x105#9 a t (claimedBy c (holding source))) c) :
    ClaimsOk (headed 0x105#9 a t (claimedBy c (holding source))) := claimsOk_of_slot c rfl ok

theorem headed_heldLine_claimsOk (a : BitVec 3) (t : Tag) :
    ClaimsOk (headed 0x105#9 a t (claimedBy (.heldLine 0 9 500) (holding source))) := by
  have he : (headed 0x105#9 a t (claimedBy (.heldLine 0 9 500) (holding source))).entry 0 = source :=
    holding_entry source 0
  exact headed_claimsOk a t ⟨by rw [he]; rfl, by rw [he]; rfl, by decide, by decide, by decide⟩

theorem headed_heldHost_claimsOk (a : BitVec 3) (t : Tag) :
    ClaimsOk (headed 0x105#9 a t (claimedBy (.heldHost 0) (holding source))) := by
  have he : (headed 0x105#9 a t (claimedBy (.heldHost 0) (holding source))).entry 0 = source := holding_entry source 0
  exact headed_claimsOk a t ⟨by rw [he]; rfl, by rw [he]; rfl⟩

theorem headed_unclaimed_claimsOk (a : BitVec 3) (t : Tag) (x : Entry) :
    ClaimsOk (headed 0x105#9 a t (holding x)) := freeClaims_claimsOk rfl

/-- The nine records of `nineSources`, with handle 105h in the index as the ninth's and a header for it. -/
def nineHeaded : State :=
  headed 0x105#9 Action.claim.code 15#4 { nineSources with table := nineSources.table.setIndex 0x105#9 (some 0) }

theorem nineHeaded_claimsOk : ClaimsOk nineHeaded := by
  refine ⟨fun k => ?_, nineSources_claimsOk.unique, nineSources_claimsOk.lease, fun _ h => nomatch h⟩
  have hs : ∀ k : SlotNo, nineSources.claims.slot k = .heldHost ⟨k.val + 1, by omega⟩ := by decide +kernel
  have he : ∀ e : EntryNo, nineHeaded.entry e = source := fun e => by
    simp [nineHeaded, headed, nineSources, State.entry, TableController.entry_setIndex]
    simp [TableController.entry]
  show slotOk nineHeaded (nineSources.claims.slot k)
  rw [hs]
  exact ⟨by rw [he]; rfl, by rw [he]; rfl⟩

/-- A header that meets no sequence. -/
theorem meets_none {s : State} (hs : s.line.seq = none) (h : Handle) (a : Action) (t : Tag) :
    MeetsSequence s h a t s s.attention := by
  refine .inr ⟨fun q hq => by simp [hs] at hq, ?_, by simp [State.brokenPosting, hs]⟩
  have := s.closeSequence_closed
  rwa [State.closeSequence_none hs] at this

/-- Tag 0; a HOST claim, a LINE claim under another tag and under this one, no claim, and no slot left: each row has its
decision. And a header that closes a SERVE sequence, with a host command handed to its block. -/
theorem witness_LineClaimIsDecidedAtItsHeader :
    ((headed 0x105#9 Action.claim.code 0#4 (holding source)).awaitsCheck 0x105#9 Action.claim.code 0#4 ∧
      ClaimsOk (headed 0x105#9 Action.claim.code 0#4 (holding source)) ∧
      (headed 0x105#9 Action.claim.code 0#4 (holding source)).table.lookup 0x105#9 = some 0 ∧
      ((holding source).entry 0).state.working = true ∧ ((holding source).entry 0).role = .source ∧
      (holding source).line.seq = none) ∧
    (∀ (s : State) (posted : AttentionUnit), ∃ taken : State,
      ClaimDecided (s.enteredSpace posted 0x105#9 .claim 0#4 0 2 true) 0 0#4 taken) ∧
    (∀ (t : Tag) (posted : AttentionUnit), t ≠ 0#4 →
      (∃ taken : State, ClaimDecided ((claimedBy (.heldHost 0) (holding source)).enteredSpace posted 0x105#9 .claim t 0 2
        true) 0 t taken) ∧
      (∃ taken : State, ClaimDecided ((claimedBy (.heldLine 0 9 500) (holding source)).enteredSpace posted 0x105#9 .claim
        t 0 2 true) 0 t taken) ∧
      ∃ taken : State, ClaimDecided ((holding source).enteredSpace posted 0x105#9 .claim t 0 2 true) 0 t taken) ∧
    (∀ posted : AttentionUnit, ∃ taken : State,
      ClaimDecided (nineHeaded.enteredSpace posted 0x105#9 .claim 15#4 0 2 true) 0 15#4 taken) ∧
    ClaimsOk (headed 0x105#9 Action.claim.code 15#4 (claimedBy (.heldHost 0) (holding source))) ∧
    ClaimsOk (headed 0x105#9 Action.claim.code 9#4 (claimedBy (.heldLine 0 9 500) (holding source))) ∧
    (nineHeaded.awaitsCheck 0x105#9 Action.claim.code 15#4 ∧ ClaimsOk nineHeaded ∧
      nineHeaded.table.lookup 0x105#9 = some 0) ∧
    ((headed 0x105#9 Action.claim.code 9#4 (waitingFor (.handed .take) serving)).awaitsCheck 0x105#9 Action.claim.code
        9#4 ∧
      (headed 0x105#9 Action.claim.code 9#4 (waitingFor (.handed .take) serving)).line.seq.isSome = true ∧
      Work.isHanded (headed 0x105#9 Action.claim.code 9#4 (waitingFor (.handed .take) serving)).host.work = true) := by
  have he : ((holding source).entry 0).permits.claimOk = true := by decide +kernel
  have hn : (nineHeaded.entry 0).permits.claimOk = true := by decide +kernel
  refine ⟨⟨headed_awaitsCheck .., headed_unclaimed_claimsOk _ _ _, by decide +kernel⟩,
    fun s posted => ⟨_, _, _, _, rfl, .inl ⟨.inr rfl, rfl, rfl, rfl⟩⟩,
    fun t posted ht => ⟨⟨_, _, _, _, rfl, .inr ⟨he, ht, .inl ⟨0, rfl, rfl, rfl, rfl⟩⟩⟩, ?_,
      ⟨_, _, _, _, rfl, .inr ⟨he, ht, .inr (.inr (.inr ⟨?_, rfl, .inl ⟨0, rfl, ?_, rfl, rfl⟩⟩))⟩⟩⟩,
    fun posted => ⟨_, _, _, _, rfl, .inr ⟨hn, by decide, .inr (.inr (.inr ⟨?_, rfl,
      .inr ⟨?_, rfl, rfl⟩⟩))⟩⟩,
    headed_heldHost_claimsOk _ _, headed_heldLine_claimsOk _ _,
    ⟨headed_awaitsCheck .., nineHeaded_claimsOk, by decide +kernel⟩, headed_awaitsCheck .., rfl, rfl⟩
  · by_cases h9 : (9#4 : Tag) = t
    · subst h9
      exact ⟨_, _, _, _, rfl, .inr ⟨he, ht, .inr (.inr (.inl ⟨0, 500, rfl, rfl, rfl, rfl⟩))⟩⟩
    · exact ⟨_, _, _, _, rfl, .inr ⟨he, ht, .inr (.inl ⟨0, 9, 500, rfl, h9, rfl, rfl, rfl⟩)⟩⟩
  · intro k
    show ((holding source).claims.slot k).names 0 = false
    revert k
    decide +kernel
  · exact fun j hj => absurd hj (Nat.not_lt_zero j.val)
  · intro k
    show (nineHeaded.claims.slot k).names 0 = false
    revert k
    decide +kernel
  · intro k
    show nineHeaded.claims.slot k ≠ .free
    revert k
    decide +kernel

/-- A claim under the header's tag, under another, and none: each has its decision and its PROBE bytes; RETIRE_OK yes and
no. A sequence is met as `header_meets` shows. -/
theorem witness_ReleaseRetireAndProbeHeaders :
    (∀ a : Action,
      (headed 0x105#9 a.code 9#4 (claimedBy (.heldLine 0 9 500) (holding source))).awaitsCheck 0x105#9 a.code 9#4 ∧
        ClaimsOk (headed 0x105#9 a.code 9#4 (claimedBy (.heldLine 0 9 500) (holding source)))) ∧
    ((claimedBy (.heldLine 0 9 500) (holding source)).claims.slot 0 = .heldLine 0 9 500 ∧
      (claimedBy (.heldLine 0 9 500) (holding source)).claims.blocksLine 0 9 = false ∧
      (claimedBy (.heldLine 0 9 500) (holding source)).claims.blocksLine 0 8 = true) ∧
    ((holding source).table.lookup 0x105#9 = some 0 ∧ ((holding source).entry 0).state.working = true ∧
      ((holding source).entry 0).role = .source ∧ (holding source).line.seq = none ∧
      ((holding source).entry 0).permits.retireOk = true) ∧
    ((holding { source with permits := ⟨true, true, false⟩ }).entry 0).permits.retireOk = false ∧
    (∀ posted : AttentionUnit,
      (∃ taken : State, ReleaseDecided ((claimedBy (.heldLine 0 9 500) (holding source)).enteredSpace posted 0x105#9
        .release 9 0 2 true) 0 9 taken) ∧
      (∃ taken : State, ReleaseDecided ((holding source).enteredSpace posted 0x105#9 .release 9 0 2 true) 0 9 taken) ∧
      (∃ taken : State, ProbeRead ((claimedBy (.heldLine 0 9 500) (holding source)).enteredSpace posted 0x105#9 .probe 9
        0 5 true) 0 taken) ∧
      (∃ taken : State, ProbeRead ((claimedBy (.heldHost 0) (holding source)).enteredSpace posted 0x105#9 .probe 9 0 5
        true) 0 taken) ∧
      ∃ taken : State, ProbeRead ((holding source).enteredSpace posted 0x105#9 .probe 9 0 5 true) 0 taken) := by
  have hs : ((holding source).entry 0).state = .live := by decide +kernel
  have hn : ∀ k : SlotNo, ((holding source).claims.slot k).names 0 = false := by decide +kernel
  have hl : ∀ (k : SlotNo) (lease : Nat), (holding source).claims.slot k ≠ .heldLine 0 9 lease := fun k l h => by
    have := hn k
    simp [h, Slot.names] at this
  exact ⟨fun _ => ⟨headed_awaitsCheck .., headed_heldLine_claimsOk _ _⟩, by decide +kernel, by decide +kernel,
    by decide +kernel, fun posted => ⟨⟨_, _, rfl, .inl ⟨⟨0, 500, rfl⟩, rfl⟩⟩, ⟨_, _, rfl, .inr ⟨hl, rfl⟩⟩,
      ⟨_, .live, _, _, rfl, hs, .inr (.inl ⟨rfl, rfl⟩), .inr (.inr ⟨0, 9, 500, rfl, rfl⟩)⟩,
      ⟨_, .live, _, _, rfl, hs, .inr (.inl ⟨rfl, rfl⟩), .inr (.inl ⟨⟨0, rfl⟩, rfl⟩)⟩,
      ⟨_, .live, _, _, rfl, hs, .inr (.inl ⟨rfl, rfl⟩), .inl ⟨hn, rfl⟩⟩⟩⟩

/-- A SERVE sequence of a record whose held copy is pinned. -/
def servingHeld : State :=
  (listening .waiting (pinned .held .sequence (holding
    { longSource with current := some [4, 5, 6, 7], held := some ⟨[0, 1, 2, 3], 62⟩ }))).setSeq
    (some ⟨.serve, 0x105#9, 0, 3, none, some 400⟩)

/-- A fresh FETCH, a continuation from the current copy, and a continuation of the last segment from the held copy, each
with its request taken. -/
theorem witness_FetchHeaderPinsAndTags :
    ((headed 0x105#9 Action.fetch.code 0#4 (holding source)).awaitsCheck 0x105#9 Action.fetch.code 0#4 ∧
      (holding source).table.lookup 0x105#9 = some 0 ∧ ((holding source).entry 0).state = .live ∧
      ((holding source).entry 0).role = .source ∧ (0#4 : Tag).toNat < ((holding source).entry 0).segments ∧
      (holding source).line.seq = none) ∧
    ((headed 0x105#9 Action.fetch.code 1#4 serving).awaitsCheck 0x105#9 Action.fetch.code 1#4 ∧
      serving.table.lookup 0x105#9 = some 0 ∧ (serving.entry 0).state = .live ∧ (serving.entry 0).role = .source ∧
      (1#4 : Tag).toNat < (serving.entry 0).segments ∧
      serving.line.seq = some ⟨.serve, 0x105#9, 0, 1, none, some 400⟩ ∧
      serving.table.pin = some ⟨0, .current, .sequence⟩) ∧
    ((headed 0x105#9 Action.fetch.code 3#4 servingHeld).awaitsCheck 0x105#9 Action.fetch.code 3#4 ∧
      servingHeld.table.lookup 0x105#9 = some 0 ∧ (3#4 : Tag).toNat < (servingHeld.entry 0).segments ∧
      servingHeld.line.seq = some ⟨.serve, 0x105#9, 0, 3, none, some 400⟩ ∧
      servingHeld.table.pin = some ⟨0, .held, .sequence⟩ ∧ (servingHeld.entry 0).held = some ⟨[0, 1, 2, 3], 62⟩) ∧
    (∀ posted : AttentionUnit,
      (∃ taken : State, FetchTagged ((holding source).enteredSpace posted 0x105#9 .fetch 0 0 18 true) 0 taken) ∧
      (∃ taken : State, FetchTagged (serving.enteredSpace posted 0x105#9 .fetch 1 0 18 true) 0 taken) ∧
      ∃ taken : State, FetchTagged (servingHeld.enteredSpace posted 0x105#9 .fetch 3 0 18 true) 0 taken) :=
  have hh : (servingHeld.entry 0).held = some ⟨[0, 1, 2, 3], 62⟩ := by decide +kernel
  ⟨⟨headed_awaitsCheck .., by decide +kernel⟩, ⟨headed_awaitsCheck .., by decide +kernel⟩,
    ⟨headed_awaitsCheck .., by decide +kernel⟩, fun _ => ⟨⟨_, _, _, rfl, .inl ⟨rfl, rfl, rfl⟩⟩,
      ⟨_, _, _, rfl, .inr ⟨_, rfl, rfl, rfl, rfl, .inl ⟨rfl, rfl⟩⟩⟩,
      ⟨_, _, _, rfl, .inr ⟨_, rfl, rfl, rfl, rfl, .inr ⟨rfl, ⟨[0, 1, 2, 3], 62⟩, hh, rfl⟩⟩⟩⟩⟩

/-- A FETCH answer under way in a phase, of a segment, from the current or the held copy. -/
def answering (p : Phase) (k : PinKind) (segment : Tag) : State :=
  pinned k .frame (inFlight p .fetch segment 18 (holding
    { longSource with current := some [4, 5, 6, 7], held := some ⟨[0, 1, 2, 3], 62⟩ }))

/-- A frame in SPACE whose request waits, on a record that a host RETIRE has made RETIRING. -/
def asked (a : Action) : State := (inFlight .space a 9 2 (holding { source with state := .retiring })).setAsking true

/-- The first and the last segment, from either copy; a PROBE; a decided code; and each request that can wait. -/
theorem witness_ResponseSpaceEndBeginsTheAnswer :
    (∀ k : PinKind, ∀ segment : Tag,
      ((answering .space k segment).setReply [0x3F#8]).line.mode = .listen ∧
        ((answering .space k segment).setReply [0x3F#8]).line.phase = .space ∧
        ((answering .space k segment).setReply [0x3F#8]).line.frame.asking = false ∧
        ((answering .space k segment).setReply [0x3F#8]).line.frame.entry = some 0 ∧
        ((answering .space k segment).setReply [0x3F#8]).line.frame.action = some .fetch ∧
        ((answering .space k segment).setReply [0x3F#8]).line.frame.segment = some segment ∧
        ((answering .space k segment).setReply [0x3F#8]).line.frame.reply = [0x3F#8] ∧
        ((answering .space k segment).setReply [0x3F#8]).table.pin = some ⟨0, k, .frame⟩) ∧
    (((answering .space .held 3).entry 0).current = some [4, 5, 6, 7] ∧
      ((answering .space .held 3).entry 0).held = some ⟨[0, 1, 2, 3], 62⟩) ∧
    (inFlight .space .probe 0 5 (holding source)).line.frame.action = some .probe ∧
    ((inFlight .space .claim 1 2 (holding source)).setCode .granted).line.frame.code = some .granted ∧
    (∀ a : Action, (asked a).line.mode = .listen ∧ (asked a).line.phase = .space ∧ (asked a).line.frame.asking = true ∧
      (asked a).line.frame.entry = some 0 ∧ (asked a).line.frame.action = some a ∧
      (asked a).line.frame.tag = some 9 ∧ ClaimsOk (asked a) ∧ (asked a).Takes (.setMode 0x00#8)) ∧
    (∀ a : Action, a ≠ .store → a ≠ .retire → ∃ taken : State, RequestTaken (asked a) a 0 9 taken) := by
  have he : ∀ a, (asked a).entry 0 = { source with state := .retiring } := fun a =>
    holding_entry { source with state := .retiring } 0
  have hn : ∀ (a : Action) (k : SlotNo), ((asked a).claims.slot k).names 0 = false := fun a => by
    show ∀ k : SlotNo, ((holding { source with state := .retiring }).claims.slot k).names 0 = false
    decide +kernel
  have ok : ∀ a, ClaimsOk (asked a) := fun a =>
    have free : ClaimsOk (inFlight .space a 9 2 (holding { source with state := .retiring })) := freeClaims_claimsOk rfl
    ⟨fun k => by
      show slotOk (asked a) ((inFlight .space a 9 2 (holding { source with state := .retiring })).claims.slot k)
      have hk : ∀ k : SlotNo, (holding { source with state := .retiring }).claims.slot k = .free := by decide +kernel
      rw [show (inFlight .space a 9 2 (holding { source with state := .retiring })).claims.slot k = .free from hk k]
      trivial, free.unique, free.lease, fun e _ _ _ h => by
      obtain rfl := Option.some.inj (h : some 0 = some e)
      rw [he]
      rfl⟩
  refine ⟨fun _ _ => ⟨rfl, rfl, rfl, rfl, rfl, rfl, rfl, rfl⟩, by decide +kernel, rfl, rfl,
    fun a => ⟨rfl, rfl, rfl, rfl, rfl, rfl, ok a, takes_idle rfl rfl⟩, fun a hs hr => ?_⟩
  cases a with
  | fetch => exact ⟨_, .inr (.inr (.inr ⟨rfl, _, _, rfl, .inl ⟨rfl, rfl, rfl⟩⟩))⟩
  | claim =>
    exact ⟨_, .inl ⟨rfl, _, _, _, rfl, .inr ⟨by rw [he]; rfl, by decide,
      .inr (.inr (.inr ⟨hn _, rfl, .inl ⟨0, rfl, fun j hj => absurd hj (Nat.not_lt_zero j.val), rfl, rfl⟩⟩))⟩⟩⟩
  | release =>
    exact ⟨_, .inr (.inl ⟨rfl, _, rfl, .inr ⟨fun k l h => by have := hn .release k; simp [h, Slot.names] at this,
      rfl⟩⟩)⟩
  | probe => exact ⟨_, .inr (.inr (.inl ⟨rfl, .retiring, _, _, rfl, by rw [he], .inr (.inr (.inr ⟨rfl, rfl⟩)),
      .inl ⟨hn _, rfl⟩⟩))⟩
  | store => exact absurd rfl hs
  | retire => exact absurd rfl hr

/-- A frame in flight without a claim keeps the Claim Table's invariant. -/
theorem inFlight_claimsOk (p : Phase) (a : Action) (t : Tag) (n : Nat) (x : Entry) :
    ClaimsOk (inFlight p a t n (holding x)) := freeClaims_claimsOk rfl

theorem answering_claimsOk (p : Phase) (k : PinKind) (segment : Tag) : ClaimsOk (answering p k segment) :=
  freeClaims_claimsOk rfl

/-- A CLAIM answer under way, with its reservation. -/
def claimAnswering (renewal : Bool) : State :=
  claimedBy (.reserved 0 9 500 renewal) (inFlight .answering .claim 9 2 (holding source))

theorem claimAnswering_claimsOk (renewal : Bool) : ClaimsOk (claimAnswering renewal) :=
  have he : (claimAnswering renewal).entry 0 = source := holding_entry source 0
  claimsOk_of_slot (.reserved 0 9 500 renewal) rfl
    ⟨by rw [he]; rfl, by rw [he]; rfl, by decide, by decide, .inr rfl, rfl, rfl, rfl⟩

/-- SET_MODE OFFLINE against a FETCH answer from either copy, and against a CLAIM with either reservation. -/
theorem witness_SetModeOfflineAbandonsTheFrame_answers :
    (∀ k : PinKind, (answering .space k 0).Takes (.setMode 0x00#8) ∧ (answering .space k 0).line.phase = .space ∧
      (answering .space k 0).line.frame.asking = false ∧ (answering .space k 0).line.frame.entry = some 0 ∧
      (answering .space k 0).line.frame.action = some .fetch ∧ ((answering .space k 0).entry 0).state.working = true ∧
      ((answering .space k 0).entry 0).role = .source ∧ ClaimsOk (answering .space k 0)) ∧
    ∀ renewal : Bool, (claiming renewal).Takes (.setMode 0x00#8) ∧ (claiming renewal).line.phase = .space ∧
      (claiming renewal).line.frame.asking = false ∧ (claiming renewal).line.frame.entry = some 0 ∧
      (claiming renewal).line.frame.action = some .claim ∧ ((claiming renewal).entry 0).state.working = true ∧
      (claiming renewal).line.seq = none ∧ ClaimsOk (claiming renewal) :=
  ⟨fun k => ⟨takes_idle rfl rfl, rfl, rfl, rfl, rfl, by cases k <;> decide +kernel, by cases k <;> decide +kernel,
    answering_claimsOk _ _ _⟩,
    fun r => ⟨takes_idle rfl rfl, rfl, rfl, rfl, rfl, by cases r <;> decide +kernel, rfl, claiming_claimsOk r⟩⟩

/-- A collision of a PROBE, of a CLAIM with and without a reservation, and of a FETCH from either copy. -/
theorem witness_CollisionsEndTheFrame :
    ((inFlight .space .probe 0 5 (holding source)).line.phase = .space ∧
      (inFlight .space .probe 0 5 (holding source)).line.frame.action = some .probe ∧
      (inFlight .space .probe 0 5 (holding source)).line.idlePending = false ∧
      (inFlight .space .probe 0 5 (holding source)).line.frame.asking = false ∧
      ClaimsOk (inFlight .space .probe 0 5 (holding source))) ∧
    (let s := after .readbackMismatch (inFlight .answering .probe 0 5 (holding source));
      s.line.mode = .listen ∧ s.line.phase = .answering ∧ s.line.collided = true ∧ s.host.work ≠ some .offline ∧
        s.host.work ≠ some .restart ∧ s.line.frame.entry = some 0 ∧ (s.entry 0).state.working = true ∧
        (s.entry 0).role = .source) ∧
    (ClaimsOk (inFlight .space .claim 9 2 (holding source)) ∧
      ∀ k : SlotNo, ((inFlight .space .claim 9 2 (holding source)).claims.slot k).isReserved = false) ∧
    (ClaimsOk (claiming true) ∧ (claiming true).line.phase = .space ∧
      (claiming true).claims.slot 0 = .reserved 0 9 500 true ∧
      (claiming false).claims.slot 0 = .reserved 0 9 500 false) ∧
    (∀ k : PinKind, ClaimsOk (answering .space k 0) ∧ (answering .space k 0).line.frame.action = some .fetch ∧
      (answering .space k 0).table.pin = some ⟨0, k, .frame⟩ ∧ (answering .space k 0).line.seq = none) ∧
    ((answering .space .held 0).entry 0).held = some ⟨[0, 1, 2, 3], 62⟩ :=
  ⟨⟨rfl, rfl, rfl, rfl, inFlight_claimsOk _ _ _ _ _⟩, by decide +kernel,
    ⟨inFlight_claimsOk _ _ _ _ _, by decide +kernel⟩, ⟨claiming_claimsOk _, by decide +kernel⟩, fun _ => ⟨answering_claimsOk _ _ _, rfl, rfl, rfl⟩, by decide +kernel⟩

/-- A RELEASE answer under way that frees a claim still held. -/
def releasing : State :=
  claimedBy (.heldLine 0 9 500) ((inFlight .answering .release 9 2 (holding source)).setCode .released)

theorem releasing_claimsOk : ClaimsOk releasing :=
  claimsOk_of_slot (.heldLine 0 9 500) rfl
    ⟨by decide +kernel, by decide +kernel, by decide, by decide, by decide⟩

/-- A PROBE; a CLAIM with and without a reservation; a RELEASE with its claim and without; segments 0, 2 and 3 of four,
from either copy; and a RETIRE answered REFUSED. -/
theorem witness_CompleteAnswersTakeEffect :
    (∀ a : Action, (inFlight .answering a 9 2 (holding source)).line.mode = .listen ∧
      (inFlight .answering a 9 2 (holding source)).line.idlePending = false ∧
      (inFlight .answering a 9 2 (holding source)).line.phase = .answering ∧
      (inFlight .answering a 9 2 (holding source)).line.collided = false ∧
      (inFlight .answering a 9 2 (holding source)).host.work = none ∧
      (inFlight .answering a 9 2 (holding source)).line.frame.entry = some 0 ∧
      (inFlight .answering a 9 2 (holding source)).line.frame.action = some a ∧
      ((inFlight .answering a 9 2 (holding source)).setCode .refused).line.frame.code = some .refused ∧
      ClaimsOk (inFlight .answering a 9 2 (holding source))) ∧
    (∀ k : SlotNo, ((inFlight .answering .claim 9 2 (holding source)).claims.slot k).isReserved = false) ∧
    (∀ renewal : Bool, ClaimsOk (claimAnswering renewal) ∧
      (claimAnswering renewal).claims.slot 0 = .reserved 0 9 500 renewal) ∧
    (ClaimsOk releasing ∧ releasing.line.frame.code = some .released ∧ releasing.line.frame.tag = some 9 ∧
      releasing.claims.slot 0 = .heldLine 0 9 500 ∧ (releasing.entry 0).state.working = true ∧
      (releasing.entry 0).role = .source) ∧
    (∀ (k : PinKind) (segment : Tag), ClaimsOk (answering .answering k segment) ∧
      (answering .answering k segment).line.frame.segment = some segment ∧
      (answering .answering k segment).table.pin = some ⟨0, k, .frame⟩) ∧
    ((2#4 : Tag).toNat + 1 < ((answering .answering .held 2).entry 0).segments ∧
      ((answering .answering .held 3).entry 0).segments ≤ (3#4 : Tag).toNat + 1 ∧
      ((answering .answering .held 3).entry 0).held = some ⟨[0, 1, 2, 3], 62⟩) :=
  ⟨fun _ => ⟨rfl, rfl, rfl, rfl, rfl, rfl, rfl, rfl, inFlight_claimsOk _ _ _ _ _⟩, by decide +kernel,
    fun _ => ⟨claimAnswering_claimsOk _, rfl⟩, ⟨releasing_claimsOk, by decide +kernel⟩,
    fun _ _ => ⟨answering_claimsOk _ _ _, rfl, rfl⟩, by decide +kernel⟩

/-- A RETIRE answered RETIRED under way, and a frame in flight on a RETIRING record, whose attention record is CLOSED. -/
def retireAnswering : State := (inFlight .answering .retire 0 2 (holding source)).setCode .retired

def retiring (p : Phase) (a : Action) (collided : Bool) : State :=
  let s := (inFlight p a 0 17 (holding { source with state := .retiring })).clear 0
  { s with line := { s.line with collided := collided } }

theorem retireAnswering_attentionOk : AttentionOk retireAnswering := by constructor <;> decide +kernel

theorem retiring_attentionOk : AttentionOk (retiring .space .probe false) := by constructor <;> decide +kernel

/-- A RETIRED answer at its end; and a RETIRING record in each phase of a frame in flight, with and without a mismatch,
its host commands outstanding or not, and a reception before its last character. The invariants do not read the phase or
the action. -/
theorem witness_FrameEndsTearDown :
    (retireAnswering.line.mode = .listen ∧ retireAnswering.line.idlePending = false ∧
      retireAnswering.line.frame.entry = some 0 ∧ IndexOk retireAnswering ∧ AttentionOk retireAnswering ∧
      ClaimsOk retireAnswering ∧ (retireAnswering.entry 0).role = .source ∧
      retireAnswering.line.frame.action = some .retire ∧ retireAnswering.line.frame.code = some .retired ∧
      (retireAnswering.entry 0).state.working = true ∧ retireAnswering.line.phase = .answering ∧
      retireAnswering.line.collided = false ∧ retireAnswering.host.work = none) ∧
    (∀ (p : Phase) (a : Action) (collided : Bool),
      (retiring p a collided).line.mode = .listen ∧ (retiring p a collided).line.idlePending = false ∧
        (retiring p a collided).line.frame.entry = some 0 ∧ (retiring p a collided).line.frame.asking = false ∧
        IndexOk (retiring p a collided) ∧
        AttentionOk (retiring p a collided) ∧ ClaimsOk (retiring p a collided) ∧
        ((retiring p a collided).entry 0).role = .source ∧ ((retiring p a collided).entry 0).state = .retiring ∧
        (retiring p a collided).line.phase = p ∧ (retiring p a collided).line.collided = collided ∧
        (retiring p a collided).line.seq = none ∧ (retiring p a collided).host.work = none ∧
        (retiring p a collided).Takes (.setMode 0x00#8)) ∧
    (waitingFor .offline (retiring .answering .probe false)).host.work = some .offline ∧
    ((retiring .receiving .store false).line.frame.n = some 17 ∧
      { (retiring .receiving .store false).line with landing := List.replicate 16 0x00#8 }.landing.length + 1 = 17) := by
  have he : ∀ p a c, (retiring p a c).entry 0 = { source with state := .retiring } := fun _ _ _ => by
    show (holding { source with state := .retiring }).entry 0 = _
    rw [holding_entry]
    rfl
  refine ⟨⟨rfl, rfl, rfl, fun h e => holding_indexOk (x := source) rfl h e, retireAnswering_attentionOk,
    freeClaims_claimsOk rfl, by decide +kernel⟩, fun p a c => ⟨rfl, rfl, rfl, rfl,
    fun h e => holding_indexOk (x := { source with state := .retiring }) rfl h e, ?_, ?_, by rw [he]; rfl,
    by rw [he], rfl, rfl, rfl, rfl, takes_idle rfl rfl⟩, rfl, rfl, rfl⟩
  · have ok := retiring_attentionOk
    exact ⟨ok.attn, ok.once, ok.listed, ok.masked, ok.closedEmpty, ok.follows⟩
  · exact freeClaims_claimsOk rfl

/-- A part with no pin and one entry that has copies, in RECEIVING. -/
theorem receiving_copiesOk {s : State} {x : Entry} (he : ∀ e : EntryNo, s.entry e = if e = 0 then x else Entry.vacant)
    (hx : EntryCopiesOk x) (phase : s.line.phase = .receiving) (asking : s.line.frame.asking = false)
    (pin : s.table.pin = none) (held : x.held = none)
    (seq : ∀ q ∈ s.line.seq, sequenceOk s q)
    (staged : x.role = .mirror → x.staged.isSome = true →
      (s.line.seq.map fun q => (q.kind, q.entry)) = some (.assemble, 0)) : CopiesOk s where
  entries e := by
    rw [he]
    split
    · exact hx
    · constructor <;> decide
  held e h := by
    rw [he] at h
    split at h
    · simp [held] at h
    · simp [Entry.vacant] at h
  assembly e hr hs := by
    rw [he] at hr hs
    split at hr
    · next h =>
      subst h
      exact staged hr (by simpa using hs)
    · simp [Entry.vacant] at hr
  pin p hp := by simp [pin] at hp
  sequence := seq
  answering h := by simp [phase] at h
  asking _ h := by simp [asking] at h

theorem storing_copiesOk : CopiesOk storing :=
  receiving_copiesOk (x := source) (fun e => holding_entry source e) (by constructor <;> decide) rfl rfl rfl rfl
    (fun _ h => nomatch h) (fun h => nomatch h)

theorem continuing_copiesOk : CopiesOk continuing :=
  receiving_copiesOk (x := assembled) (fun e => holding_entry assembled e) (by constructor <;> decide) rfl rfl rfl rfl
    (fun q hq => by
      obtain rfl := Option.some.inj (hq : some (⟨.assemble, 0x105#9, 0, 1, some 7, none⟩ : SequenceContext) = some q)
      exact ⟨by decide +kernel, by decide +kernel, by decide, by decide +kernel, ⟨rfl, by decide +kernel⟩,
        ⟨fun _ => rfl, fun _ => rfl⟩, fun _ => ⟨rfl, rfl, rfl⟩⟩)
    (fun _ _ => rfl)

/-- The first character of a reception, and the last one. -/
theorem witness_ReceptionFaultsPostTheirCause :
    (storing.line.mode = .listen ∧ storing.line.phase = .receiving ∧ storing.line.frame.n = some 17 ∧
      storing.line.landing.length + 1 < 17 ∧ storing.line.idlePending = false ∧
      storing.line.frame.entry = some 0 ∧ (storing.entry 0).state.working = true ∧
      storing.line.frame.action = some .store ∧ (storing.entry 0).role = .source ∧ CopiesOk storing) ∧
    ((inFlight .receiving .store 0 1 (holding source)).line.frame.n =
        some ((inFlight .receiving .store 0 1 (holding source)).line.landing.length + 1) ∧
      (0x01#8 : Byte) ≠ (inFlight .receiving .store 0 1 (holding source)).line.check) ∧
    (continuing.line.phase = .receiving ∧ continuing.line.frame.action = some .fetch ∧
      (continuing.entry 0).role = .mirror ∧ (continuing.entry 0).state.working = true ∧ CopiesOk continuing ∧
      (after .dominantRunStart continuing).line.edge = true) :=
  ⟨⟨rfl, rfl, rfl, by decide, rfl, rfl, by decide +kernel, rfl, by decide +kernel, storing_copiesOk⟩, by decide +kernel,
    rfl, rfl, by decide +kernel, by decide +kernel, continuing_copiesOk, rfl⟩

/-- Sixteen bytes of STORE data that have landed, all but the check. -/
def stored (s : State) : State := { s with line := { s.line with landing := List.replicate 16 0xAA#8 } }

/-- No claim, a claim that denies the STORE, one that allows it, STORE_OK no, no current copy and no free cell. -/
theorem witness_StoresAreAcceptedDeniedOrDropped :
    ((stored storing).line.mode = .listen ∧ (stored storing).line.phase = .receiving ∧
      (stored storing).line.idlePending = false ∧ (stored storing).line.frame.entry = some 0 ∧
      (stored storing).line.frame.action = some .store ∧ (stored storing).line.frame.tag = some 0 ∧
      ((stored storing).entry 0).state.working = true ∧ ((stored storing).entry 0).role = .source ∧
      (stored storing).line.landing.length = ((stored storing).entry 0).length ∧
      ((stored storing).entry 0).length ≤ 16 ∧
      (stored storing).line.frame.n = some (((stored storing).entry 0).length + 1) ∧ ClaimsOk (stored storing) ∧
      MemoryOk (stored storing) ∧ ((stored storing).entry 0).permits.storeOk = true ∧
      (∀ k : SlotNo, ((stored storing).claims.slot k).names 0 = false) ∧
      ((stored storing).entry 0).current = some [0]) ∧
    (ClaimsOk (claimedBy (.heldLine 0 9 500) (stored storing)) ∧
      (claimedBy (.heldLine 0 9 500) (stored storing)).claims.slot 0 = .heldLine 0 9 500 ∧
      (inFlight .receiving .store 9 17 (holding source)).line.frame.tag = some 9) ∧
    ((holding { source with permits := ⟨false, true, true⟩ }).entry 0).permits.storeOk = false ∧
    (((holding { source with state := .draft, current := none }).entry 0).current = none ∧
      ({ holding { source with state := .draft, current := none } with pool := ⟨[], []⟩ }.entry 0).current = none) := by
  have he : (claimedBy (.heldLine 0 9 500) (stored storing)).entry 0 = source := holding_entry source 0
  refine ⟨⟨rfl, rfl, rfl, rfl, rfl, rfl, by decide +kernel, by decide +kernel, by decide +kernel, by decide +kernel,
    by decide +kernel, freeClaims_claimsOk rfl, rfl, by decide +kernel, by decide +kernel,
    by decide +kernel⟩, ⟨claimsOk_of_slot (.heldLine 0 9 500) rfl ⟨by rw [he]; rfl, by rw [he]; rfl, by decide,
    by decide, by decide⟩, rfl, rfl⟩, by decide +kernel, by decide +kernel⟩

/-- A capture of some bytes and the tag byte 07h, all but the check, for a MIRROR as given and a sequence. -/
def captured (x : Entry) (segment : Tag) (size : Nat) (seq : Option SequenceContext) : State :=
  let s := inFlight .receiving .fetch segment (size + 2) (holding x)
  { s with line := { s.line with landing := List.replicate size 0xAA#8 ++ [0x07#8], seq := seq } }

/-- A MIRROR with nothing captured, of one segment and of three; one of one segment with data. -/
def oldMirror : Entry := { mirror with state := .live, current := some [0] }

def longMirror : Entry := { mirror with length := 40 }

theorem captured_entry (x : Entry) (segment : Tag) (size : Nat) (seq : Option SequenceContext) :
    (captured x segment size seq).entry 0 = x := holding_entry x 0

theorem mirrors_copiesOk : EntryCopiesOk mirror ∧ EntryCopiesOk oldMirror ∧ EntryCopiesOk longMirror ∧
    EntryCopiesOk assembled :=
  ⟨by constructor <;> decide, by constructor <;> decide, by constructor <;> decide, by constructor <;> decide⟩

/-- A capture with no sequence open, of a MIRROR with no staged copy. -/
theorem captured_copiesOk {x : Entry} (hx : EntryCopiesOk x) (held : x.held = none) (staged : x.staged = none)
    (segment : Tag) (size : Nat) : CopiesOk (captured x segment size none) :=
  receiving_copiesOk (x := x) (fun e => holding_entry x e) hx rfl rfl rfl held (fun _ h => nomatch h)
    (fun _ h => by simp [staged] at h)

/-- A capture of the segment that the open sequence expects next. -/
theorem continued_copiesOk (version : Version) (next : Nat) (segment : Tag) (size : Nat) (h1 : 1 ≤ next) (h2 : next < 3)
    (hs : segment.toNat = next) :
    CopiesOk (captured assembled segment size (some ⟨.assemble, 0x105#9, 0, next, some version, none⟩)) :=
  receiving_copiesOk (x := assembled) (fun e => holding_entry assembled e) (by constructor <;> decide) rfl rfl rfl rfl
    (fun q hq => by
      obtain rfl := Option.some.inj
        (hq : some (⟨.assemble, 0x105#9, 0, next, some version, none⟩ : SequenceContext) = some q)
      have he := captured_entry assembled segment size (some ⟨.assemble, 0x105#9, 0, next, some version, none⟩)
      refine ⟨by rw [he]; rfl, by rw [he]; rfl, h1, by rw [he]; exact h2, ⟨rfl, by rw [he]; exact ⟨rfl, rfl⟩⟩,
        ⟨fun _ => rfl, fun _ => rfl⟩, fun _ => ⟨rfl, rfl, ?_⟩⟩
      show some segment.toNat = some next
      rw [hs])
    (fun _ _ => rfl)

/-- One segment, over old data and over none; the first segment of three; the second, at the version that is open
(tag byte 07h) and under another; and the last, which has 8 bytes. -/
theorem witness_GoodCapturesAreApplied :
    (∀ (x : Entry) (segment : Tag) (size : Nat) (seq : Option SequenceContext),
      x.state.working = true → x.role = .mirror → 1 ≤ size → size ≤ 16 →
      x.cells = (List.finRange 384).take x.cells.length →
      (captured x segment size seq).line.mode = .listen ∧ (captured x segment size seq).line.phase = .receiving ∧
        (captured x segment size seq).line.idlePending = false ∧
        (captured x segment size seq).line.frame.entry = some 0 ∧
        (captured x segment size seq).line.frame.action = some .fetch ∧
        ((captured x segment size seq).entry 0).state.working = true ∧
        ((captured x segment size seq).entry 0).role = .mirror ∧
        (captured x segment size seq).line.landing = List.replicate size 0xAA#8 ++ [0x07#8] ∧
        (captured x segment size seq).line.frame.n = some ((List.replicate size 0xAA#8).length + 2) ∧
        (captured x segment size seq).line.seq = seq ∧ MemoryOk (captured x segment size seq) ∧
        CellsOk (captured x segment size seq)) ∧
    (∀ x ∈ [mirror, oldMirror, longMirror, assembled], x.state.working = true ∧ x.role = .mirror ∧
      x.cells = (List.finRange 384).take x.cells.length) ∧
    (CopiesOk (captured mirror 0 16 none) ∧ CopiesOk (captured oldMirror 0 1 none) ∧
      CopiesOk (captured longMirror 0 16 none)) ∧
    (∀ version : Version,
      CopiesOk (captured assembled 1 16 (some ⟨.assemble, 0x105#9, 0, 1, some version, none⟩)) ∧
        CopiesOk (captured assembled 2 8 (some ⟨.assemble, 0x105#9, 0, 2, some version, none⟩))) ∧
    (oldMirror.segments = 1 ∧ oldMirror.current = some [0] ∧ mirror.segments = 1 ∧ mirror.current = none ∧
      ((holding mirror).pool.free ≠ [])) ∧
    (longMirror.segments = 3 ∧ 3 ≤ (holding longMirror).pool.free.length) ∧
    (assembled.segments = 3 ∧ assembled.staged = some [3, 4, 5] ∧ (0x07#8 : Byte).extractLsb' 0 6 = 7#6 ∧
      (some 6#6 : Option Version) ≠ some ((0x07#8 : Byte).extractLsb' 0 6)) := by
  refine ⟨fun x segment size seq hw hr _ _ hcells => ?_, by decide +kernel,
    ⟨captured_copiesOk mirrors_copiesOk.1 rfl rfl _ _, captured_copiesOk mirrors_copiesOk.2.1 rfl rfl _ _,
      captured_copiesOk mirrors_copiesOk.2.2.1 rfl rfl _ _⟩,
    fun v => ⟨continued_copiesOk v 1 1 16 (by decide) (by decide) rfl,
      continued_copiesOk v 2 2 8 (by decide) (by decide) rfl⟩, by decide +kernel, by decide +kernel,
    by decide +kernel⟩
  rw [captured_entry]
  exact ⟨rfl, rfl, rfl, rfl, rfl, hw, hr, rfl, by simp [captured, inFlight], rfl, rfl,
    fun c => holding_cellsOk hcells c⟩

/-! ## Witness: the invariants -/

/-- A part that no reset leaves: a SERVE sequence open under the pin, a LINE claim, a cause kept, a byte written, and a
command waiting that closes the sequence. -/
def running : State :=
  { (claimedBy (.heldLine 0 9 500) serving).post 0 .updated with
    pool := ⟨[(5, 0x5A#8)], (holding longSource).pool.free⟩
    pending := [.setMode 0x02#8] }

theorem running_entry (e : EntryNo) : running.entry e = if e = 0 then longSource else Entry.vacant :=
  holding_entry longSource e

theorem running_copiesOk : CopiesOk running where
  entries e := by
    rw [running_entry]
    split
    · simpa [holding_entry] using longSource_copiesOk
    · constructor <;> decide
  held := by decide +kernel
  assembly := by decide +kernel
  pin := by
    intro p hp
    obtain rfl := Option.some.inj (hp : some (⟨0, .current, .sequence⟩ : Pin) = some p)
    show (running.entry 0).role = .source ∧ (running.entry 0).current.isSome = true ∧
      (running.line.seq.map fun q => (q.kind, q.entry)) = some (.serve, 0)
    decide +kernel
  sequence := by
    intro q hq
    obtain rfl := Option.some.inj
      (hq : some (⟨.serve, 0x105#9, 0, 1, none, some 400⟩ : SequenceContext) = some q)
    refine ⟨by decide +kernel, by decide +kernel, by decide, by decide +kernel, ⟨rfl, by decide +kernel⟩, ?_, ?_⟩
    · exact ⟨fun h => (nomatch h), fun h => (nomatch h)⟩
    · exact fun h => nomatch h
  answering := by decide +kernel
  asking _ h := nomatch h

/-- The premises of StepKeepsMemoryCanonical, StepKeepsTheLineUnitConsistent, StepKeepsTheHostPortConsistent,
StepKeepsTheFlightMark, StepKeepsTheAttentionList, StepKeepsTheRecordTable, StepKeepsTheClaimTable,
StepKeepsTheCopies and StepKeepsEveryCellOnce, all together. -/
theorem witness_StepKeepsTheInvariants :
    ∃ t : State, step running = .next t ∧ MemoryOk running ∧ LineOk running ∧ HostOk running ∧ FlightOk running ∧
      AttentionOk running ∧ IndexOk running ∧ RangesOk running ∧ ClaimsOk running ∧ CopiesOk running ∧
      CellsOk running := by
  refine ⟨_, rfl, rfl, by constructor <;> decide +kernel, by constructor <;> decide +kernel,
    by constructor <;> decide +kernel, by constructor <;> decide +kernel,
    fun h e => holding_indexOk (x := longSource) rfl h e, by constructor <;> decide +kernel, ?_, running_copiesOk,
    fun c => holding_cellsOk (x := longSource) (by decide +kernel) c⟩
  exact claimsOk_of_slot (.heldLine 0 9 500) rfl
    ⟨by rw [running_entry]; rfl, by rw [running_entry]; rfl, by decide, by decide, by decide⟩

end Sys2Proof.Tests
end

section
/-! PROOFS. The record table: R19's checks of the commands that name an entry, and FIND (R20). -/

namespace Sys2Proof.Machine

/-! ## Record commands that name an entry (R19) -/

/-- Every command that names an entry is carried out through R19's checks, which come before anything it does itself. -/
theorem exec_of_namedEntry {c : Instr} {b : Byte} {late : Bool} (hc : c.namedEntry = some (b, late)) :
    ∃ effect : State → EntryNo → State,
      ∀ s : State, exec c s = .next (s.runCommand c fun s => s.withEntry late b (effect s)) := by
  cases c with
  | amend entry selector permits mask limit => cases hc; exact ⟨_, fun _ => rfl⟩
  | stage entry offset data => cases hc; exact ⟨fun s e => s.stage e offset data, fun _ => rfl⟩
  | commit entry => cases hc; exact ⟨State.commit, fun _ => rfl⟩
  | discard entry => cases hc; exact ⟨State.discard, fun _ => rfl⟩
  | read entry offset count => cases hc; exact ⟨fun s e => s.read e offset count, fun _ => rfl⟩
  | describe entry => cases hc; exact ⟨fun s e => s.complete .done (s.description e), fun _ => rfl⟩
  | retire entry => cases hc; exact ⟨State.retire, fun _ => rfl⟩
  | hold entry => cases hc; exact ⟨State.hold, fun _ => rfl⟩
  | letGo entry force => cases hc; exact ⟨fun s e => s.letGo e (decide (force = 0x01#8)), fun _ => rfl⟩
  | _ => cases hc

/-- Settles O4: every one of the nine commands goes through `withEntry`, whose refusals `runRecord_of_takes` gives. -/
theorem recordCommandsRefuseInOrder : Obligations.RecordCommandsRefuseInOrder := by
  intro c b late s hc ht
  obtain ⟨effect, hexec⟩ := exec_of_namedEntry hc
  obtain ⟨_, outOfRange, inRange, _⟩ := State.runRecord_of_takes ht late b effect
  rw [hexec]
  refine ⟨fun hb => congrArg _ (outOfRange hb), fun hb => ?_⟩
  obtain ⟨vacant, wrongState, _⟩ := inRange hb
  exact ⟨fun hv => congrArg _ (vacant hv), fun hs hl => congrArg _ (wrongState hl hs)⟩

/-! ## FIND (R20) -/

/-- A command its block takes, whose effect is a reply alone whatever the Host Port holds, gives that reply and changes
nothing else. -/
theorem State.runCommand_eq_replied {s : State} {c : Instr} (h : s.Takes c) {effect : State → State} {status : Status}
    {data : List Byte}
    (he : ∀ x : HostPort, effect { s with host := x } = ({ s with host := x } : State).complete status data) :
    s.runCommand c effect = s.replied status data := by
  obtain ⟨x, hx, hcompleted, _⟩ := State.runCommand_of_takes h effect
  calc s.runCommand c effect
      = { s with host := x.completed status data } := hx.trans (he x)
    _ = s.replied status data := by rw [hcompleted]; rfl

theorem State.find_outOfRange (s : State) {handle : Half} (h : 511 < handle.toNat) :
    s.find handle = s.complete .badArgument [] := if_pos h

theorem State.find_of_lookup_none {s : State} {handle : Half} (h : handle.toNat ≤ 511)
    (hl : s.table.lookup (handle.truncate 9) = none) : s.find handle = s.complete .noEntry [] := by
  simp only [State.find, Nat.not_lt.2 h, if_false, hl]

theorem State.find_of_lookup_some {s : State} {handle : Half} {e : EntryNo} (h : handle.toNat ≤ 511)
    (hl : s.table.lookup (handle.truncate 9) = some e) :
    s.find handle = s.complete .done [BitVec.ofNat 8 e.val, (s.entry e).state.code] := by
  simp only [State.find, Nat.not_lt.2 h, if_false, hl]

/-- Settles O13: `State.find` has R20's three outcomes, none of which looks at the Host Port. -/
theorem findLooksTheHandleUp : Obligations.FindLooksTheHandleUp := by
  intro handle s ht
  have reply : ∀ {status : Status} {data : List Byte},
      (∀ x : HostPort, State.find { s with host := x } handle = State.complete { s with host := x } status data) →
        exec (.find handle) s = .next (s.replied status data) :=
    fun he => congrArg _ (State.runCommand_eq_replied ht he)
  refine ⟨fun h => reply fun _ => State.find_outOfRange _ h, fun h hl => ?_, fun h e hl => ?_⟩
  · exact reply fun _ => State.find_of_lookup_none h hl
  · exact reply fun _ => State.find_of_lookup_some h hl

end Sys2Proof.Machine
end

section
/-! PROOFS. The Attention Unit: LINE_STATUS (R163, R164). -/

namespace Sys2Proof.Machine

/-! ## LINE_STATUS (R163, R164) -/

/-- Once the condition set is emptied, the list alone decides ATTN (R164). -/
theorem AttentionUnit.drive_emptied (u : AttentionUnit) :
    { u with conditions := 0#8 }.drive = { u with conditions := 0#8, attn := !u.list.isEmpty } := by
  simp [AttentionUnit.drive]

/-- LINE_STATUS at the Attention Unit is its reply and the emptying of the condition set (R163). -/
theorem State.lineStatus_eq (s : State) :
    s.lineStatus =
      { s.replied .done [s.line.mode.code, s.line.phase.code, s.attention.conditions] with
        attention := { s.attention with conditions := 0#8, attn := !s.attention.list.isEmpty } } := by
  rw [State.lineStatus, AttentionUnit.drive_emptied]
  rfl

/-- Settles O10: a taken command runs its effect with a Host Port that completes as the one in `s` does, and
`State.lineStatus` reads nothing else of the port. -/
theorem lineStatusReportsAndEmptiesTheConditions : Obligations.LineStatusReportsAndEmptiesTheConditions := by
  intro s ht
  obtain ⟨x, hrun, hcompleted, _⟩ := State.runCommand_of_takes ht State.lineStatus
  calc exec .lineStatus s
      = .next (s.runCommand .lineStatus State.lineStatus) := rfl
    _ = .next (State.lineStatus { s with host := x }) := by rw [hrun]
    _ = .next { s.replied .done [s.line.mode.code, s.line.phase.code, s.attention.conditions] with
          attention := { s.attention with conditions := 0#8, attn := !s.attention.list.isEmpty } } := by
      simp only [State.lineStatus_eq, State.replied, hcompleted]

end Sys2Proof.Machine
end
section
/-! PROOFS. Taking a step: what a step is in terms of the meaning of one command, and what the row of a host command
keeps. Every statement about all commands rests on these. -/

namespace Sys2Proof.Machine

/-! ## The queue (log 22) -/

/-- A step idles on an empty queue and else carries out the front command with the queue's rest. -/
theorem step_eq_next {s t : State} (h : step s = .next t) :
    t = s ∨ ∃ (c : Instr) (rest : List Instr), exec c { s with pending := rest } = .next t := by
  unfold step at h
  split at h
  · exact .inl (by cases h; rfl)
  · next c rest _ => exact .inr ⟨c, rest, h⟩

/-- Settles O1: both halves are `step`'s own branches. -/
theorem stepTakesTheFrontCommand : Obligations.StepTakesTheFrontCommand :=
  ⟨fun c rest s h => by simp only [step, h], fun s h => by simp only [step, h]⟩

/-! ## Branches that do nothing -/

/-- An event that comes where it has no effect leaves a kept predicate alone; where it has one, the effect must keep
it. -/
theorem keeps_ite {I : State → Prop} {p : Prop} [Decidable p] {s t : State} (same : I s) (effect : p → I t) :
    I (if p then t else s) := by
  split
  · next h => exact effect h
  · exact same

/-! ## The row of a host command (log 4, R173) -/

/-- R19's checks keep what their refusal keeps, when the effect keeps it on an entry that passes them. -/
theorem State.withEntry_keeps {I : State → Prop} {s : State} {late : Bool} {b : Byte} {effect : EntryNo → State}
    (refused : ∀ status : Status, status ≠ .busy → status ≠ .done → I (s.complete status []))
    (passed : ∀ e : EntryNo, (s.entry e).state.working = true ∨
      late = true ∧ ((s.entry e).state = .retiring ∨ (s.entry e).state = .ended) → I (effect e)) :
    I (s.withEntry late b effect) := by
  rcases s.withEntry_cases late b effect with ⟨status, he, hs⟩ | ⟨hb, he, hs⟩
  · rw [he]
    exact refused status (by rintro rfl; simp at hs) (by rintro rfl; simp at hs)
  · rw [he]
    exact passed _ hs

end Sys2Proof.Machine
end

section
/-! PROOFS. Frames: what each shared operation of the Line Unit and of a frame's end leaves as it was. Proofs about single
commands read these instead of unfolding the operations. -/

namespace Sys2Proof.Machine

/-! ## Closing a sequence (R105, R114) -/

@[simp] theorem State.releasePin_index (s : State) : s.releasePin.table.index = s.table.index := by
  rw [State.releasePin_eq]
  split
  · rfl
  · rfl
  · simp only [State.freeHeld_eq]
    rfl

@[simp] theorem State.releasePin_inFlight (s : State) : s.releasePin.table.inFlight = s.table.inFlight := by
  rw [State.releasePin_eq]
  split
  · rfl
  · rfl
  · simp only [State.freeHeld_eq]
    rfl

@[simp] theorem State.closeSequence_index (s : State) : s.closeSequence.table.index = s.table.index := by
  rw [State.closeSequence_eq]
  split
  · rfl
  · exact s.releasePin_index
  · simp only [State.freeStaged_eq]
    rfl

@[simp] theorem State.closeSequence_inFlight (s : State) : s.closeSequence.table.inFlight = s.table.inFlight := by
  rw [State.closeSequence_eq]
  split
  · rfl
  · exact s.releasePin_inFlight
  · simp only [State.freeStaged_eq]
    rfl

@[simp] theorem State.closeSequence_requestCount (s : State) : s.closeSequence.requestCount = s.requestCount := by
  rw [State.closeSequence_frame]

/-- Closing a sequence early is closing it, and the posting of SEG_BROKEN (R114). -/
theorem State.breakSequence_closed (s : State) :
    s.breakSequence = { s.closeSequence with attention := s.brokenPosting s.attention } := by
  cases h : s.line.seq with
  | none => simp [State.breakSequence, State.brokenPosting, h, State.closeSequence_none h]
  | some q =>
    have ha : s.closeSequence.attention.post q.entry (Cause.set .segBroken) = s.brokenPosting s.attention := by
      simp only [State.closeSequence_attention, State.brokenPosting, h]
      rfl
    simp only [State.breakSequence, h, ← ha]
    rfl

@[simp] theorem State.breakSequence_table (s : State) : s.breakSequence.table = s.closeSequence.table := by
  rw [State.breakSequence_closed]
@[simp] theorem State.breakSequence_pool (s : State) : s.breakSequence.pool = s.closeSequence.pool := by
  rw [State.breakSequence_closed]
@[simp] theorem State.breakSequence_claims (s : State) : s.breakSequence.claims = s.claims := by
  rw [State.breakSequence_closed]; exact s.closeSequence_claims
@[simp] theorem State.breakSequence_line (s : State) : s.breakSequence.line = { s.line with seq := none } := by
  rw [State.breakSequence_closed]; exact s.closeSequence_line
@[simp] theorem State.breakSequence_attention (s : State) :
    s.breakSequence.attention = s.brokenPosting s.attention := by
  rw [State.breakSequence_closed]
@[simp] theorem State.breakSequence_host (s : State) : s.breakSequence.host = s.host := by
  rw [State.breakSequence_closed]; exact s.closeSequence_host
@[simp] theorem State.breakSequence_entry (s : State) (e : EntryNo) :
    s.breakSequence.entry e = s.closeSequence.entry e := by
  rw [State.breakSequence_closed]; rfl

/-! ## Leaving LISTEN and settling an idle expiry (R147, R150) -/

/-- Leaving LISTEN closes the sequence early and clears the Line Unit (R147). -/
theorem State.leaveListen_eq (s : State) (m : LineMode) :
    s.leaveListen m = { s.closeSequence with
      attention := s.brokenPosting s.attention, line := { s.line with seq := none }.quit m } := by
  simp only [State.leaveListen, State.quitListen, State.breakSequence_line]
  rw [State.breakSequence_closed]

@[simp] theorem State.leaveListen_line (s : State) (m : LineMode) :
    (s.leaveListen m).line = { s.line with seq := none }.quit m := by rw [State.leaveListen_eq]
@[simp] theorem State.leaveListen_table (s : State) (m : LineMode) :
    (s.leaveListen m).table = s.closeSequence.table := by rw [State.leaveListen_eq]
@[simp] theorem State.leaveListen_pool (s : State) (m : LineMode) :
    (s.leaveListen m).pool = s.closeSequence.pool := by rw [State.leaveListen_eq]
@[simp] theorem State.leaveListen_claims (s : State) (m : LineMode) :
    (s.leaveListen m).claims = s.claims := by rw [State.leaveListen_eq]; exact s.closeSequence_claims
@[simp] theorem State.leaveListen_attention (s : State) (m : LineMode) :
    (s.leaveListen m).attention = s.brokenPosting s.attention := by rw [State.leaveListen_eq]
@[simp] theorem State.leaveListen_host (s : State) (m : LineMode) :
    (s.leaveListen m).host = s.host := by rw [State.leaveListen_eq]; exact s.closeSequence_host

/-- The Line Unit once its phase has become WAITING, SKIPPING or RECOVERING (R101). -/
def LineUnit.quieted (l : LineUnit) (p : Phase) : LineUnit :=
  { l with
    phase := p, assembling := false, edge := false, breakSeen := false, runBefore := false, collided := false
    txd := .released }

/-- A change of phase to WAITING, SKIPPING or RECOVERING stays there, or settles a pending idle expiry (R101, R150). -/
theorem State.enterQuiet_cases (s : State) (p : Phase) :
    s.enterQuiet p = { s with line := s.line.quieted p } ∨
      s.enterQuiet p = { s with line := s.line.quieted p }.leaveListen .dormant ∧
        s.line.mode = .listen ∧ s.line.idlePending = true ∧ p.quiet = true :=
  State.settleIdle_cases { s with line := s.line.quieted p }

/-- A change of phase keeps what its two outcomes keep. -/
theorem State.enterQuiet_keeps {I : State → Prop} {s : State} {p : Phase} (stays : I { s with line := s.line.quieted p })
    (leaves : s.line.mode = .listen → s.line.idlePending = true →
      I ({ s with line := s.line.quieted p }.leaveListen .dormant)) : I (s.enterQuiet p) := by
  rcases s.enterQuiet_cases p with h | ⟨h, hm, hp, _⟩
  · rw [h]; exact stays
  · rw [h]; exact leaves hm hp

/-- Settling a deferred idle expiry keeps what leaving LISTEN keeps. -/
theorem State.settleIdle_keeps {I : State → Prop} {s : State} (same : I s)
    (leaves : s.line.mode = .listen → s.line.phase.quiet = true → I (s.leaveListen .dormant)) : I s.settleIdle := by
  rcases s.settleIdle_cases with h | ⟨h, hm, _, hq⟩
  · rw [h]; exact same
  · rw [h]; exact leaves hm hq

/-! ## Reports of a frame's end (R103) -/

/-- What the blocks may do when a frame's end, or the close of a sequence, is reported to them: the Line Unit keeps all
but its sequence context, the Host Port, the queue and the configured lease stay. -/
structure ReportsOnly (s t : State) : Prop where
  line : t.line = { s.line with seq := t.line.seq }
  lease : t.claims.lease = s.claims.lease
  host : t.host = s.host
  queue : QueueKept s t

theorem QueueKept.refl (s : State) : QueueKept s s := ⟨rfl, rfl, rfl⟩

theorem QueueKept.trans {s t u : State} (h : QueueKept s t) (g : QueueKept t u) : QueueKept s u :=
  ⟨g.1.trans h.1, g.2.1.trans h.2.1, g.2.2.trans h.2.2⟩

theorem ReportsOnly.refl (s : State) : ReportsOnly s s := ⟨rfl, rfl, rfl, .refl s⟩

theorem ReportsOnly.trans {s t u : State} (h : ReportsOnly s t) (g : ReportsOnly t u) : ReportsOnly s u where
  line := by rw [g.line, h.line]
  lease := g.lease.trans h.lease
  host := g.host.trans h.host
  queue := h.queue.trans g.queue

theorem ReportsOnly.post {s t : State} (h : ReportsOnly s t) (e : EntryNo) (c : Cause) : ReportsOnly s (t.post e c) :=
  ⟨h.line, h.lease, h.host, h.queue⟩

theorem ReportsOnly.setEntry {s t : State} (h : ReportsOnly s t) (e : EntryNo) (x : Entry) :
    ReportsOnly s (t.setEntry e x) := ⟨h.line, h.lease, h.host, h.queue⟩

theorem ReportsOnly.vacate {s t : State} (h : ReportsOnly s t) (e : EntryNo) : ReportsOnly s (t.vacate e) :=
  h.setEntry e _

theorem ReportsOnly.setPosting {s t : State} (h : ReportsOnly s t) (e : EntryNo) (p : PostingState) :
    ReportsOnly s (t.setPosting e p) := ⟨h.line, h.lease, h.host, h.queue⟩

theorem ReportsOnly.setInFlight {s t : State} (h : ReportsOnly s t) (m : Option EntryNo) :
    ReportsOnly s (t.setInFlight m) := ⟨h.line, h.lease, h.host, h.queue⟩

theorem ReportsOnly.setSeq {s t : State} (h : ReportsOnly s t) (q : Option SequenceContext) :
    ReportsOnly s (t.setSeq q) where
  line := by simp only [State.setSeq_line]; rw [h.line]
  lease := h.lease
  host := h.host
  queue := h.queue

theorem State.releasePin_reports (s : State) : ReportsOnly s s.releasePin := by
  rw [State.releasePin_frame]
  exact ⟨rfl, rfl, rfl, ⟨rfl, rfl, rfl⟩⟩

theorem State.closeSequence_reports (s : State) : ReportsOnly s s.closeSequence where
  line := by simp
  lease := by simp
  host := by simp
  queue := ⟨by simp, by simp, by simp⟩

theorem State.breakSequence_reports (s : State) : ReportsOnly s s.breakSequence := by
  rw [State.breakSequence_closed]
  exact s.closeSequence_reports.trans ⟨rfl, rfl, rfl, ⟨rfl, rfl, rfl⟩⟩

theorem State.teardown_reports (s : State) (e : EntryNo) : ReportsOnly s (s.teardown e) := by
  rw [State.teardown_eq]
  exact ⟨rfl, rfl, rfl, ⟨rfl, rfl, rfl⟩⟩

theorem State.endEntry_reports (s : State) (e : EntryNo) : ReportsOnly s (s.endEntry e) :=
  (((s.teardown_reports e).setEntry e _).setPosting e .ending).post e .retired

theorem State.applyStore_reports (s : State) (e : EntryNo) (data : List Byte) : ReportsOnly s (s.applyStore e data) := by
  unfold State.applyStore
  dsimp only
  split
  · exact ⟨rfl, rfl, rfl, ⟨rfl, rfl, rfl⟩⟩
  · split <;> exact ⟨rfl, rfl, rfl, ⟨rfl, rfl, rfl⟩⟩

theorem State.acceptStore_reports (s : State) (e : EntryNo) : ReportsOnly s (s.acceptStore e) := by
  unfold State.acceptStore
  dsimp only
  split
  · exact (ReportsOnly.refl s).post _ _
  · exact s.applyStore_reports _ _

theorem State.applyCapture_reports (s : State) (e : EntryNo) (data : List Byte) (b : Byte) :
    ReportsOnly s (s.applyCapture e data b) := by
  unfold State.applyCapture
  dsimp only
  split
  · exact ⟨rfl, rfl, rfl, ⟨rfl, rfl, rfl⟩⟩
  · split <;> exact ⟨rfl, rfl, rfl, ⟨rfl, rfl, rfl⟩⟩

theorem State.openAssembly_reports (s : State) (e : EntryNo) (data : List Byte) (b : Byte) :
    ReportsOnly s (s.openAssembly e data b) := by
  unfold State.openAssembly
  dsimp only
  split <;> exact ⟨rfl, rfl, rfl, ⟨rfl, rfl, rfl⟩⟩

theorem State.completeAssembly_reports (s : State) (e : EntryNo) (q : SequenceContext) (data : List Byte) (b : Byte) :
    ReportsOnly s (s.completeAssembly e q data b) := by
  simp only [State.completeAssembly, State.freeCurrent_eq]
  exact ⟨rfl, rfl, rfl, ⟨rfl, rfl, rfl⟩⟩

theorem State.captureGood_reports (s : State) (e : EntryNo) : ReportsOnly s (s.captureGood e) := by
  unfold State.captureGood
  dsimp only
  split
  · exact s.applyCapture_reports _ _ _
  · split
    · exact s.openAssembly_reports _ _ _
    · split
      · exact s.breakSequence_reports
      · split
        · exact ⟨rfl, rfl, rfl, ⟨rfl, rfl, rfl⟩⟩
        · exact s.completeAssembly_reports _ _ _ _

theorem State.fetchAnswered_reports (s : State) (how : FrameEnd) (e : EntryNo) :
    ReportsOnly s (s.fetchAnswered how e) := by
  unfold State.fetchAnswered
  dsimp only
  split
  · split
    · exact ⟨rfl, rfl, rfl, ⟨rfl, rfl, rfl⟩⟩
    · exact s.releasePin_reports.setSeq none
  · exact s.releasePin_reports.trans s.releasePin.breakSequence_reports

theorem State.reportToClaims_reports (s : State) (how : FrameEnd) (e : EntryNo) :
    ReportsOnly s (s.reportToClaims how e) := by
  unfold State.reportToClaims State.claimAnswered State.claimFailed State.releaseAnswered
  repeat' split
  all_goals exact ⟨rfl, rfl, rfl, ⟨rfl, rfl, rfl⟩⟩

theorem State.reportToTable_reports (s : State) (how : FrameEnd) (e : EntryNo) :
    ReportsOnly s (s.reportToTable how e) := by
  unfold State.reportToTable
  split
  · exact (s.teardown_reports e).vacate e
  · split
    · split
      · exact s.fetchAnswered_reports how e
      · split
        · exact s.captureGood_reports e
        · exact s.breakSequence_reports
    · split
      · exact s.acceptStore_reports e
      · exact .refl s
    · split
      · exact s.endEntry_reports e
      · exact .refl s
    all_goals exact .refl s

/-- The reports of a frame's end leave the Line Unit alone but for its sequence context, and the Host Port and the queue
wholly. -/
theorem State.reportEnd_reports (s : State) (how : FrameEnd) : ReportsOnly s (s.reportEnd how) := by
  unfold State.reportEnd
  split
  · exact ⟨rfl, rfl, rfl, ⟨rfl, rfl, rfl⟩⟩
  · exact ((s.reportToClaims_reports how _).setInFlight none).trans
      (State.reportToTable_reports _ how _)

/-! ## A request taken, and the end of a frame (R66, R98, R131) -/

@[simp] theorem State.serveRequest_host (s : State) : s.serveRequest.host = s.host := by rw [State.serveRequest_frame]
@[simp] theorem State.serveRequest_pool (s : State) : s.serveRequest.pool = s.pool := by rw [State.serveRequest_frame]
@[simp] theorem State.serveRequest_index (s : State) : s.serveRequest.table.index = s.table.index := by
  rw [State.serveRequest_frame]
@[simp] theorem State.serveRequest_inFlight (s : State) : s.serveRequest.table.inFlight = s.table.inFlight := by
  rw [State.serveRequest_frame]
@[simp] theorem State.serveRequest_lease (s : State) : s.serveRequest.claims.lease = s.claims.lease := by
  rw [State.serveRequest_frame]
@[simp] theorem State.serveRequest_entry (s : State) (d : EntryNo) : s.serveRequest.entry d = s.entry d := by
  rw [State.serveRequest_frame]; rfl
theorem State.serveRequest_queue (s : State) : QueueKept s s.serveRequest := by
  rw [State.serveRequest_frame]; exact .refl s
theorem State.serveRequest_line (s : State) :
    s.serveRequest.line = { s.line with frame := s.serveRequest.line.frame } := by
  rw [State.serveRequest_frame]

/-- What the end of a frame in flight leaves: the Line Unit but for the frame and sequence contexts, the Host Port, the
queue and the configured lease. -/
structure EndsOnly (s t : State) : Prop where
  line : t.line = { s.line with seq := t.line.seq, frame := t.line.frame }
  lease : t.claims.lease = s.claims.lease
  host : t.host = s.host
  queue : QueueKept s t

theorem ReportsOnly.ends {s t : State} (h : ReportsOnly s t) : EndsOnly s t where
  line := by rw [h.line]
  lease := h.lease
  host := h.host
  queue := h.queue

theorem EndsOnly.trans {s t u : State} (h : EndsOnly s t) (g : EndsOnly t u) : EndsOnly s u where
  line := by rw [g.line, h.line]
  lease := g.lease.trans h.lease
  host := g.host.trans h.host
  queue := h.queue.trans g.queue

theorem State.serveRequest_ends (s : State) : EndsOnly s s.serveRequest := by
  rw [State.serveRequest_frame]
  exact ⟨rfl, rfl, rfl, ⟨rfl, rfl, rfl⟩⟩

theorem State.frameEnd_ends (s : State) (how : FrameEnd) : EndsOnly s (s.frameEnd how) :=
  s.serveRequest_ends.trans (s.serveRequest.reportEnd_reports how).ends

theorem State.postFrame_reports (s : State) (c : Cause) : ReportsOnly s (s.postFrame c) := by
  unfold State.postFrame
  split
  · exact .refl s
  · exact (ReportsOnly.refl s).post _ _

theorem State.frameCollided_ends (s : State) : EndsOnly s s.frameCollided :=
  (s.frameEnd_ends .collided).trans (State.postFrame_reports _ .collided).ends

end Sys2Proof.Machine
end

section
/-! PROOFS. What a step can do, said once: every command either does nothing, is refused by the Host Port, or has one of
the effects listed here. The invariants are proved over these effects and not over the commands. -/

namespace Sys2Proof.Machine

/-! ## The effects -/

/-- What the edges of CS and the release of a reset make of the Host Port (R165 to R173). -/
inductive PortEffect (h : HostPort) : HostPort → Prop
  | fall (cs : h.csLow = false) (stage : h.stage ≠ .held) : PortEffect h h.select
  | fallInReset (cs : h.csLow = false) (stage : h.stage = .held) : PortEffect h { h with csLow := true }
  | release (stage : h.stage = .held) (cs : h.csLow = false) : PortEffect h { h with stage := .initialising }
  | releaseLow (stage : h.stage = .held) (cs : h.csLow = true) :
      PortEffect h { h with stage := .initialising }.select
  | passes (bs buffer : List Byte) (cs : h.csLow = true) (state : h.state = .shifting)
      (size : buffer.length ≤ 42 ∨ buffer = h.buffer) :
      PortEffect h { h with shifted := bs, csLow := false, sdo := none, state := .idle, buffer := buffer }
  | refuses (bs buffer : List Byte) (status : Status) (cs : h.csLow = true) (state : h.state = .shifting)
      (size : buffer.length ≤ 42) (known : status ≠ .busy ∧ status ≠ .done) :
      PortEffect h ({ h with
        shifted := bs, csLow := false, sdo := none, state := .idle, buffer := buffer }.completed status [])
  | hands (bs buffer : List Byte) (c : Instr) (cs : h.csLow = true) (state : h.state = .shifting)
      (size : buffer.length ≤ 42) :
      PortEffect h ({ h with
        shifted := bs, csLow := false, sdo := none, state := .idle, buffer := buffer }.outstanding (.handed c))
  | discards (bs : List Byte) (cs : h.csLow = true) (state : h.state = .workingBusy) :
      PortEffect h { h with shifted := bs, csLow := false, sdo := none, state := h.afterBusy, buffer := [] }
  | rises (bs : List Byte) (cs : h.csLow = true)
      (state : h.state = .initialising ∨ h.state = .idle ∨ h.state = .working) :
      PortEffect h { h with shifted := bs, csLow := false }

/-- The events that change the Line Unit alone and neither begin nor end a frame. -/
inductive LineEffect (l : LineUnit) : LineUnit → Prop
  | runStarts (mode : l.mode = .listen) (phase : l.phase = .waiting) :
      LineEffect l { l with runBefore := false, phase := .inBreak, breakSeen := false }
  | runBeforeEnds (mode : l.mode = .listen) (phase : l.phase = .waiting ∨ l.phase = .recovering) :
      LineEffect l { l with runBefore := false }
  | edgeSeen (mode : l.mode = .listen) (phase : l.phase = .receiving) : LineEffect l { l with edge := true }
  | breakEnds (mode : l.mode = .listen) (phase : l.phase = .inBreak) :
      LineEffect l { l with phase := .header, breakSeen := false, header := [], check := crcStart, assembling := false }
  | headerStartBit (dominant : Bool) (mode : l.mode = .listen) (phase : l.phase = .header) :
      LineEffect l { l with assembling := dominant }
  | responseStartBit (dominant seen : Bool) (mode : l.mode = .listen) (phase : l.phase = .receiving) :
      LineEffect l { l with assembling := dominant, startSeen := seen, edge := false }
  | headerKept (b check : Byte) (mode : l.mode = .listen) (phase : l.phase = .header) :
      LineEffect l { l with header := l.header ++ [b], check := check, assembling := false }
  | byteLands (b : Byte) (mode : l.mode = .listen) (phase : l.phase = .receiving)
      (room : l.landing.length + 1 < l.frame.n.getD 0) :
      LineEffect l { l with
        landing := l.landing ++ [b], check := crcByte l.check b, assembling := false, startSeen := true, edge := false }
  | mismatch (mode : l.mode = .listen) (phase : l.phase = .answering) :
      LineEffect l { l with collided := true, txd := .released }
  | rouseSeen (mode : l.mode = .dormant) : LineEffect l { l with rouseSeen := true }
  | pulseEnds (mode : l.mode = .rousing) : LineEffect l { l with txd := .released }
  | expiryDeferred (due : l.idleDue = true) (phase : l.phase.quiet = false) :
      LineEffect l { l with idlePending := true }

/-- The free order an event draws: none, the order of a tick's postings (log 7), or that of a request sent while a host
command stands handed to its block (log 10). -/
inductive Drawn
  | nothing
  | order
  | request

/-- What the line, the pins and the passing of time can do. -/
inductive PartEffect (s : State) : Drawn → State → Prop
  | nothing : PartEffect s .nothing s
  | port (h : HostPort) (effect : PortEffect s.host h) : PartEffect s .nothing { s with host := h }
  | line (l : LineUnit) (effect : LineEffect s.line l) : PartEffect s .nothing { s with line := l }
  | answerCompletes (mode : s.line.mode = .listen) (phase : s.line.phase = .answering) :
      PartEffect s .nothing ((s.frameEnd .completed).enterQuiet .waiting)
  | collides (mode : s.line.mode = .listen) (phase : s.line.phase = .space ∨ s.line.phase = .answering) :
      PartEffect s .nothing (s.frameCollided.enterQuiet .skipping)
  | collidesInBreak (mode : s.line.mode = .listen) (phase : s.line.phase = .space ∨ s.line.phase = .answering) :
      PartEffect s .nothing s.frameCollided.newFrame
  | spaceEnds (mode : s.line.mode = .listen) (phase : s.line.phase = .space) (answer : List Byte) :
      PartEffect s .nothing { s.serveRequest with line := { s.serveRequest.line with
        phase := .answering, collided := false, txd := .answer
        frame := { s.serveRequest.line.frame with answer := answer } } }
  | received (b : Byte) (mode : s.line.mode = .listen) (phase : s.line.phase = .receiving) :
      PartEffect s .nothing (((s.landByte b).frameEnd .received).enterQuiet .skipping)
  | lastByteWrong (b : Byte) (mode : s.line.mode = .listen) (phase : s.line.phase = .receiving) :
      PartEffect s .nothing ((s.landByte b).receptionFault .damaged)
  | receptionFails (c : Cause) (mode : s.line.mode = .listen) (phase : s.line.phase = .receiving) :
      PartEffect s .nothing (s.receptionFault c)
  | cut (mode : s.line.mode = .listen) (phase : s.line.phase = .receiving) :
      PartEffect s .nothing (((s.setCondition .cut).frameEnd .cut).postFrame .damaged).newFrame
  | sticksInFlight (mode : s.line.mode = .listen) (phase : s.line.phase.inFlight = true) :
      PartEffect s .nothing (((s.setCondition .lineStuck).frameEnd .faulty).enterQuiet .recovering)
  | sticks (mode : s.line.mode = .listen) (phase : s.line.phase.inFlight = false) :
      PartEffect s .nothing ((s.setCondition .lineStuck).enterQuiet .recovering)
  | quiets (mode : s.line.mode = .listen) (phase : s.line.phase.inFlight = false) :
      PartEffect s .nothing (s.enterQuiet .waiting)
  | headerFails (c : LineCondition) (mode : s.line.mode = .listen) (phase : s.line.phase = .header) :
      PartEffect s .nothing (s.headerFault c)
  | decodes (h : Handle) (a : Action) (t : Tag) (mode : s.line.mode = .listen) (phase : s.line.phase = .header) :
      PartEffect s .request (s.decodeAction h a t)
  | breaks (mode : s.line.mode = .listen) (phase : s.line.phase.inFlight = false) : PartEffect s .nothing s.newFrame
  | breaksHeader (mode : s.line.mode = .listen) (phase : s.line.phase = .header) :
      PartEffect s .nothing ((s.setCondition .headerFraming).breakSequence).newFrame
  | wakes (mode : s.line.mode = .dormant) : PartEffect s .nothing (s.enterListen .waiting)
  | wakesStuck (mode : s.line.mode = .dormant) : PartEffect s .nothing ((s.setCondition .lineStuck).enterListen .recovering)
  | rouseEnds (mode : s.line.mode = .rousing) : PartEffect s .nothing (s.finishRouse .waiting)
  | rouseSticks (mode : s.line.mode = .rousing) : PartEffect s .nothing ((s.setCondition .lineStuck).finishRouse .recovering)
  | holdExpires (q : SequenceContext) (seq : s.line.seq = some q) (hold : q.hold.isSome = true) :
      PartEffect s .nothing s.breakSequence
  | idles (mode : s.line.mode = .listen) (phase : s.line.phase.quiet = true) : PartEffect s .nothing (s.leaveListen .dormant)
  | ticks (stage : s.host.stage = .complete) : PartEffect s .order s.tick
  | freshnessExpires (e : EntryNo) (expires : (s.entry e).expires = true) :
      PartEffect s .nothing ((s.setEntry e { s.entry e with state := .stale }).post e .stale)
  | leaseExpires (k : SlotNo) (e : EntryNo) : PartEffect s .nothing ((s.setSlot k .free).post e .claimEnded)
  | vacates (e : EntryNo) (reply : List Byte) (work : s.host.work = some (.vacate e reply)) :
      PartEffect s .nothing ((s.vacate e).complete .done reply)
  | powers : PartEffect s .nothing { s.startReset with pool := CellPool.reset }
  | resets : PartEffect s .nothing s.startReset
  | initialised (stage : s.host.stage = .initialising) :
      PartEffect s .nothing { s.resetBlocks.defaultConfiguration with host := { s.host with
        stage := .complete, ready := true, work := none
        state := if s.host.state = .workingBusy then .workingBusy else .idle } }

/-- A command outstanding that its own row carries on: handed to its block, or waiting for the end of a character. -/
def Work.taken : Option Work → Bool
  | some (.handed _) | some .offline | some .restart => true
  | some .rouse | some (.vacate _ _) | none => false

/-- What a host command can do once its block takes it, now or at the end of a character. -/
inductive HostEffect (s : State) : State → Prop
  | replies (status : Status) (data : List Byte) (known : status ≠ .busy) (size : data.length ≤ 40) :
      HostEffect s (s.complete status data)
  | configures (r : Rate) (holdTb : Half) (idle : Byte) (lease : Half) (range : configureInRange holdTb lease = true)
      (mode : s.line.mode = .offline) :
      HostEffect s ({ s with
        line := { s.line with rate := r, hold := holdTb.toNat, idleLimit := idle.toNat }
        claims := { s.claims with lease := lease.toNat } }.complete .done [])
  | leaves (m : LineMode) (target : m = .offline ∨ m = .dormant) (phase : s.line.phase.inFlight = false) :
      HostEffect s ((s.leaveListen m).completeMode m)
  | waits (w : Work) (which : w = .offline ∨ w = .restart) : HostEffect s (s.setWork w)
  | abandons (phase : s.line.phase.inFlight = true) : HostEffect s (s.abandonFrame.completeMode .offline)
  | collides (phase : s.line.phase.inFlight = true) :
      HostEffect s ((s.frameCollided.leaveListen .offline).completeMode .offline)
  | enters (mode : s.line.mode ≠ .listen) : HostEffect s ((s.enterListen .waiting).completeMode .listen)
  | quits (m : LineMode) (target : m = .offline ∨ m = .dormant) (mode : s.line.mode ≠ .listen) :
      HostEffect s ((s.quitListen m).completeMode m)
  | rouses (mode : s.line.mode = .dormant) :
      HostEffect s ({ s with line := { s.line.quit .rousing with txd := .pulse } }.setWork .rouse)
  | defines (e : EntryNo) (handle : Half) (role len permits : Byte) (limit mask : Half)
      (args : defineArgumentsOk handle role len permits mask = true) (fresh : s.table.lookup (handle.truncate 9) = none)
      (vacant : s.table.firstVacant = some e) :
      HostEffect s ((s.defineEntry e handle role len permits limit mask).complete .done [BitVec.ofNat 8 e.val])
  | amends (e : EntryNo) (selector permits : Byte) (mask limit : Half) (state : (s.entry e).state.working = true)
      (args : amendArgumentsOk (s.entry e) selector permits mask = true) :
      HostEffect s ((s.amendEntry e selector permits mask limit).complete .done [])
  | stagesInPlace (e : EntryNo) (cells : List CellNo) (o : Nat) (data : List Byte)
      (staged : (s.entry e).staged = some cells) :
      HostEffect s ({ s with pool := CellPool.writeRecord cells s.pool o data }.complete .done [])
  | stages (e : EntryNo) (cells : List CellNo) (p : CellPool) (o : Nat) (data : List Byte)
      (state : (s.entry e).state.working = true) (role : (s.entry e).role = .source) (staged : (s.entry e).staged = none)
      (takes : s.pool.allocate (s.entry e).segments = some (cells, p)) :
      HostEffect s ({ s.setEntry e { s.entry e with staged := some cells } with
        pool := CellPool.writeRecord cells (s.stagedFill e cells p) o data }.complete .done [])
  | commits (e : EntryNo) (cells : List CellNo) (state : (s.entry e).state.working = true)
      (role : (s.entry e).role = .source) (staged : (s.entry e).staged = some cells) :
      HostEffect s ((s.commitEntry e cells).complete .done [((s.entry e).version + 1).zeroExtend 8])
  | discards (e : EntryNo) (state : (s.entry e).state.working = true) (role : (s.entry e).role = .source) :
      HostEffect s ((s.freeStaged e).complete .done [])
  | marksRetiring (e : EntryNo) (state : (s.entry e).state.working = true) (mark : s.table.inFlight = some e) :
      HostEffect s
        (((s.setEntry e { s.entry e with state := .retiring }).clear e).complete .done [EntryState.code .retiring])
  | tearsDown (e : EntryNo) (state : (s.entry e).state.working = true) (mark : s.table.inFlight ≠ some e) :
      HostEffect s ((((s.teardown e).clear e).vacate e).complete .done [EntryState.code .vacant])
  | vacates (e : EntryNo) (state : (s.entry e).state = .ended) :
      HostEffect s (((s.clear e).vacate e).complete .done [EntryState.code .vacant])
  | holds (e : EntryNo) (k : SlotNo) (state : (s.entry e).state.working = true) (role : (s.entry e).role = .source)
      (unclaimed : s.claims.slotOf e = none) :
      HostEffect s ((s.setSlot k (.heldHost e)).complete .done [BitVec.ofNat 8 k.val])
  | frees (k : SlotNo) : HostEffect s ((s.setSlot k .free).complete .done [])
  | freesPosting (k : SlotNo) (e : EntryNo) :
      HostEffect s (((s.setSlot k .free).post e .claimEnded).complete .done [])
  | takes (e : EntryNo) (rest : List EntryNo) (list : s.attention.list = e :: rest)
      (posting : (s.attention.record e).posting ≠ .ending) :
      HostEffect s ({ s with attention := s.attention.takeHead e rest }.complete .done (s.attention.takeReply e))
  | takesEnding (e : EntryNo) (rest : List EntryNo) (list : s.attention.list = e :: rest)
      (posting : (s.attention.record e).posting = .ending) :
      HostEffect s
        ({ s with attention := s.attention.takeHead e rest }.setWork (.vacate e (s.attention.takeReply e)))
  | emptiesConditions : HostEffect s s.lineStatus
  | restarts : HostEffect s s.finishRestart

/-- A command outstanding is carried on, or one that comes in IDLE is handed to its block (log 4). -/
inductive Carried (s : State) : State → Prop
  | before (work : Work.taken s.host.work = true) : Carried s s
  | now (c : Instr) (idle : s.host.state = .idle) : Carried s (s.setWork (.handed c))

theorem Carried.work {s r : State} (h : Carried s r) : Work.taken r.host.work = true := by
  cases h with
  | before work => exact work
  | now c idle => rfl

/-- What a command can do. -/
inductive Effects (c : Instr) (s t : State) : Prop
  | nothing (eq : t = s)
  | part (event : c.isHostCommand = false) (effect : PartEffect s .nothing t)
  | ticks (tick : c = .tick) (stage : s.host.stage = .complete) (eq : t = s.tick)
  | decodes (b : Byte) (dominant : Bool) (character : c = .headerCharacter b dominant) (effect : PartEffect s .request t)
  | refused (status : Status) (idle : s.host.state = .idle) (known : status ≠ .busy ∧ status ≠ .done)
      (eq : t = s.complete status [])
  | host (r : State) (carried : Carried s r) (effect : HostEffect r t)

/-! ## Host commands -/

theorem portRefusal_known {c : Instr} {status : Status} (h : portRefusal c = some status) :
    status ≠ .busy ∧ status ≠ .done := by
  unfold portRefusal at h
  repeat' split at h
  all_goals cases h
  all_goals decide

/-- The row of a host command whose taking has one of the effects of a host command. -/
theorem State.runCommand_effects (s : State) (c : Instr) {effect : State → State}
    (taken : ∀ r : State, r.host.work = some (.handed c) → HostEffect r (effect r)) :
    Effects c s (s.runCommand c effect) := by
  rcases s.runCommand_cases c effect with ⟨hw, he⟩ | ⟨hi, _, he⟩ | ⟨hi, status, hp, he⟩ | he
  · rw [he]; exact .host s (.before (by rw [hw]; rfl)) (taken s hw)
  · rw [he]; exact .host _ (.now c hi) (taken _ rfl)
  · exact .refused status hi (portRefusal_known hp) he
  · exact .nothing he

/-- A record command that is refused, or has an effect on an entry that passes R19's checks. -/
theorem State.withEntry_effects {s : State} {late : Bool} {b : Byte} {effect : EntryNo → State}
    (passed : ∀ e : EntryNo, (s.entry e).state.working = true ∨
      late = true ∧ ((s.entry e).state = .retiring ∨ (s.entry e).state = .ended) → HostEffect s (effect e)) :
    HostEffect s (s.withEntry late b effect) :=
  State.withEntry_keeps (fun _ known _ => .replies _ _ known (by simp)) passed

theorem State.configure_effects (s : State) (rate : Byte) (holdTb : Half) (idle : Byte) (lease : Half) :
    HostEffect s (s.configure rate holdTb idle lease) := by
  unfold State.configure
  split
  · exact .replies _ _ (by decide) (by simp)
  · split
    · exact .replies _ _ (by decide) (by simp)
    · next range =>
      split
      · exact .replies _ _ (by decide) (by simp)
      · next mode => exact .configures _ _ _ _ (by simpa using range) (by simpa using mode)

theorem State.setMode_effects (s : State) (mode : Byte) : HostEffect s (s.setMode mode) := by
  unfold State.setMode
  split
  · exact .replies _ _ (by decide) (by simp)
  · exact .replies _ _ (by decide) (by simp)
  · next m hne _ =>
    have target : m ≠ .listen → m = .offline ∨ m = .dormant := by cases m <;> simp_all
    split
    · unfold State.setModeInListen
      split
      · exact .replies _ _ (by decide) (by simp)
      · split
        · exact .replies _ _ (by decide) (by simp)
        · next h => exact .leaves _ (.inr rfl) (by simpa using h)
      · split
        · exact .waits _ (.inl rfl)
        · split
          · next h => exact .abandons h
          · next h => exact .leaves _ (.inl rfl) (by simpa using h)
      · exact .replies _ _ (by decide) (by simp)
    · next hm =>
      unfold State.setModeQuiet
      split
      · exact .replies _ _ (by decide) (by simp)
      · split
        · exact .enters hm
        · next hl => exact .quits m (target hl) hm

theorem State.rouse_effects (s : State) : HostEffect s s.rouse := by
  unfold State.rouse
  split
  · next h => exact .rouses h
  · exact .replies _ _ (by decide) (by simp)

theorem State.define_effects (s : State) (handle : Half) (role len permits : Byte) (limit mask : Half) :
    HostEffect s (s.define handle role len permits limit mask) := by
  unfold State.define
  split
  · exact .replies _ _ (by decide) (by simp)
  · next args =>
    split
    · exact .replies _ _ (by decide) (by simp)
    · next fresh =>
      split
      · exact .replies _ _ (by decide) (by simp)
      · next e vacant => exact .defines e _ _ _ _ _ _ (by simpa using args) (by simpa using fresh) vacant

theorem State.stage_effects {s : State} {e : EntryNo} (state : (s.entry e).state.working = true) (offset : Byte)
    (data : List Byte) : HostEffect s (s.stage e offset data) := by
  unfold State.stage
  dsimp only
  split
  · exact .replies _ _ (by decide) (by simp)
  · next role =>
    split
    · exact .replies _ _ (by decide) (by simp)
    · split
      · next cells staged => exact .stagesInPlace e cells _ _ staged
      · next staged =>
        split
        · exact .replies _ _ (by decide) (by simp)
        · next cells p takes =>
          exact .stages e cells p _ _ state (by cases h : (s.entry e).role <;> simp_all) staged takes

theorem State.commit_effects {s : State} {e : EntryNo} (state : (s.entry e).state.working = true) :
    HostEffect s (s.commit e) := by
  unfold State.commit
  split
  · exact .replies _ _ (by decide) (by simp)
  · next role =>
    split
    · exact .replies _ _ (by decide) (by simp)
    · next cells staged =>
      split
      · exact .replies _ _ (by decide) (by simp)
      · exact .commits e cells state (by cases h : (s.entry e).role <;> simp_all) staged

theorem State.discard_effects {s : State} {e : EntryNo} (state : (s.entry e).state.working = true) :
    HostEffect s (s.discard e) := by
  unfold State.discard
  split
  · exact .replies _ _ (by decide) (by simp)
  · next role =>
    split
    · exact .replies _ _ (by decide) (by simp)
    · exact .discards e state (by cases h : (s.entry e).role <;> simp_all)

theorem State.read_effects (s : State) (e : EntryNo) (offset count : Byte) : HostEffect s (s.read e offset count) := by
  unfold State.read
  dsimp only
  split
  · exact .replies _ _ (by decide) (by simp)
  · next h =>
    split
    · exact .replies _ _ (by decide) (by simp)
    · exact .replies _ _ (by decide) (by simp only [List.length_cons, CellPool.readRecord_length]; omega)

theorem State.retire_effects (s : State) (e : EntryNo) : HostEffect s (s.retire e) := by
  unfold State.retire
  have record : (s.entry e).state.working = true → HostEffect s (s.retireRecord e) := fun state => by
    unfold State.retireRecord
    split
    · next mark => exact .marksRetiring e state mark
    · next mark => exact .tearsDown e state mark
  split
  · next h => exact record (by rw [h]; rfl)
  · next h => exact record (by rw [h]; rfl)
  · next h => exact record (by rw [h]; rfl)
  · exact .replies _ _ (by decide) (by simp)
  · next h => exact .vacates e h
  · exact .replies _ _ (by decide) (by simp)

theorem State.hold_effects {s : State} {e : EntryNo} (state : (s.entry e).state.working = true) :
    HostEffect s (s.hold e) := by
  unfold State.hold
  split
  · exact .replies _ _ (by decide) (by simp)
  · next role =>
    split
    · split <;> exact .replies _ _ (by decide) (by simp)
    · next unclaimed =>
      split
      · exact .holds e _ state (by cases h : (s.entry e).role <;> simp_all) unclaimed
      · exact .replies _ _ (by decide) (by simp)

theorem State.letGo_effects {s : State} {e : EntryNo} (force : Bool) : HostEffect s (s.letGo e force) := by
  unfold State.letGo
  split
  · exact .replies _ _ (by decide) (by simp)
  · split
    · exact .replies _ _ (by decide) (by simp)
    · next k _ =>
      have forced : HostEffect s ((s.forceFree k e).complete .done []) := by
        unfold State.forceFree
        split
        · exact .freesPosting k e
        · split
          · exact .freesPosting k e
          · exact .frees k
        · exact .replies _ _ (by decide) (by simp)
        · exact .replies _ _ (by decide) (by simp)
      split
      · exact .frees k
      · split
        · exact forced
        · exact .replies _ _ (by decide) (by simp)
      · split
        · exact forced
        · exact .replies _ _ (by decide) (by simp)
      · exact .replies _ _ (by decide) (by simp)

theorem State.take_effects (s : State) : HostEffect s s.take := by
  unfold State.take
  split
  · exact .replies _ _ (by decide) (by simp)
  · next e rest list =>
    dsimp only
    split
    · next posting => exact .takesEnding e rest list posting
    · next posting => exact .takes e rest list posting

theorem State.restart_effects (s : State) : HostEffect s s.restart := by
  unfold State.restart
  split
  · exact .waits _ (.inr rfl)
  · exact .restarts

theorem State.finishOffline_effects (s : State) : HostEffect s s.finishOffline := by
  unfold State.finishOffline
  split
  · next h =>
    split
    · exact .collides h
    · exact .abandons h
  · next h => exact .leaves _ (.inl rfl) (by simpa using h)

/-! ## The Host Port's own events -/

theorem execCsFall_effects (s : State) : ∃ t : State, execCsFall s = .next t ∧ PartEffect s .nothing t := by
  refine ⟨_, rfl, ?_⟩
  split
  · exact .nothing
  · next cs =>
    split
    · next stage => exact .port _ (.fallInReset (by simpa using cs) stage)
    · next stage => exact .port _ (.fall (by simpa using cs) stage)

theorem execResetRelease_effects (s : State) : ∃ t : State, execResetRelease s = .next t ∧ PartEffect s .nothing t := by
  refine ⟨_, rfl, ?_⟩
  split
  · next stage =>
    dsimp only
    split
    · next cs => exact .port _ (.releaseLow stage cs)
    · next cs => exact .port _ (.release stage (by simpa using cs))
  · exact .nothing

/-- The rise of CS in SHIFTING (R167, R173). -/
theorem State.judge_effects {s : State} (cs : s.host.csLow = true) (state : s.host.state = .shifting)
    (bytes : List Byte) (count : Nat) : PartEffect s .nothing ((s.recordShifted count).judge bytes) := by
  have size : (bytes.take Config.bufferBytes).length ≤ 42 := by simp [Config.bufferBytes]
  unfold State.judge
  split
  · exact .port _ (.passes _ s.host.buffer cs state (.inr rfl))
  · exact .port _ (.passes _ _ cs state (.inl size))
  · exact .port _ (.refuses _ [] .badFrame cs state (by simp) (by decide))
  · unfold State.takeFrame
    split
    · exact .port _ (.refuses _ _ .badCommand cs state size (by decide))
    · exact .port _ (.refuses _ _ .badArgument cs state size (by decide))
    · split
      · next hp => exact .port _ (.refuses _ _ _ cs state size (portRefusal_known hp))
      · exact .port _ (.hands _ _ _ cs state size)

theorem execCsRise_effects (bytes : List Byte) (s : State) :
    ∃ t : State, execCsRise bytes s = .next t ∧ PartEffect s .nothing t := by
  refine ⟨_, rfl, ?_⟩
  split
  · exact .nothing
  · next cs =>
    have cs : s.host.csLow = true := by simpa using cs
    dsimp only
    split
    · next state => exact State.judge_effects cs state bytes _
    · next state => exact .port _ (.discards _ cs state)
    · next state => exact .port _ (.rises _ cs (.inl state))
    · next state => exact .port _ (.rises _ cs (.inr (.inl state)))
    · next state => exact .port _ (.rises _ cs (.inr (.inr state)))

/-! ## The events of the line -/

theorem execDominantRunStart_effects (s : State) : ∃ t : State, execDominantRunStart s = .next t ∧ PartEffect s .nothing t := by
  refine ⟨_, rfl, ?_⟩
  split
  · next mode =>
    split
    · next phase => exact .line _ (.runStarts mode phase)
    · next phase => exact .line _ (.runBeforeEnds mode (.inr phase))
    · next phase =>
      split
      · exact .nothing
      · exact .line _ (.edgeSeen mode phase)
    all_goals exact .nothing
  · exact .nothing

theorem execRunShortOfBreak_effects (s : State) : ∃ t : State, execRunShortOfBreak s = .next t ∧ PartEffect s .nothing t := by
  refine ⟨_, rfl, ?_⟩
  split
  · next mode =>
    split
    · next phase =>
      split
      · exact .nothing
      · exact .quiets mode (by rw [phase]; rfl)
    · next phase => exact .line _ (.runBeforeEnds mode (.inl phase))
    all_goals exact .nothing
  · exact .nothing

/-- A run that reaches 12 Tb in LISTEN (R90). -/
theorem State.reachBreak_effects {s : State} (mode : s.line.mode = .listen) : PartEffect s .nothing s.reachBreak := by
  unfold State.reachBreak
  split
  · next phase =>
    split
    · exact .nothing
    · exact .breaks mode (by rw [phase]; rfl)
  · next phase => exact .breaksHeader mode phase
  · next phase => exact .collidesInBreak mode (.inl phase)
  · next phase => exact .cut mode phase
  · next phase => exact .breaks mode (by rw [phase]; rfl)
  · next phase =>
    split
    · exact .nothing
    · exact .breaks mode (by rw [phase]; rfl)
  · exact .nothing
  · next phase =>
    split
    · exact .nothing
    · exact .breaks mode (by rw [phase]; rfl)

theorem execStartBitSample_effects (dominant : Bool) (s : State) :
    ∃ t : State, execStartBitSample dominant s = .next t ∧ PartEffect s .nothing t := by
  refine ⟨_, rfl, ?_⟩
  split
  · next h =>
    split
    · next phase => exact .line _ (.headerStartBit dominant h.1 phase)
    · next phase => exact .line _ (.responseStartBit dominant _ h.1 phase)
    all_goals exact .nothing
  · exact .nothing

/-- A header character whose stop bit is recessive (R93). -/
theorem State.headerByte_effects {s : State} (mode : s.line.mode = .listen) (phase : s.line.phase = .header)
    (b : Byte) : PartEffect s .nothing (s.headerByte b) ∨ PartEffect s .request (s.headerByte b) := by
  unfold State.headerByte
  split
  · split
    · exact .inl (.line _ (.headerKept b _ mode phase))
    · exact .inl (.headerFails _ mode phase)
  · exact .inl (.line _ (.headerKept b _ mode phase))
  · exact .inl (.line _ (.headerKept b _ mode phase))
  · split
    · unfold State.decodeHeader
      split
      · exact .inl (.headerFails _ mode phase)
      · exact .inr (.decodes _ _ _ mode phase)
    · exact .inl (.headerFails _ mode phase)

/-- A response character (R100, R134, R135). -/
theorem execResponseCharacter_effects (b : Byte) (stopDominant : Bool) (s : State) :
    ∃ t : State, execResponseCharacter b stopDominant s = .next t ∧ PartEffect s .nothing t := by
  refine ⟨_, rfl, ?_⟩
  split
  · next h =>
    split
    · exact .receptionFails _ h.1 h.2
    · split
      · next room => exact .line _ (.byteLands b h.1 h.2 room)
      · unfold State.lastByte
        split
        · exact .received b h.1 h.2
        · exact .lastByteWrong b h.1 h.2
  · exact .nothing

theorem execLineStuck_effects (s : State) : ∃ t : State, execLineStuck s = .next t ∧ PartEffect s .nothing t := by
  refine ⟨_, rfl, ?_⟩
  split
  · next mode =>
    dsimp only
    split
    · next phase => exact .sticksInFlight mode phase
    · next phase => exact .sticks mode (by simpa using phase)
  · exact .nothing

theorem execRousePulseEnd_effects (dominant : Bool) (s : State) :
    ∃ t : State, execRousePulseEnd dominant s = .next t ∧ PartEffect s .nothing t := by
  refine ⟨_, rfl, ?_⟩
  split
  · next h =>
    split
    · exact .line _ (.pulseEnds h.1)
    · exact .rouseEnds h.1
  · exact .nothing

theorem execIdleExpiry_effects (s : State) : ∃ t : State, execIdleExpiry s = .next t ∧ PartEffect s .nothing t := by
  refine ⟨_, rfl, ?_⟩
  split
  · next h =>
    have mode : s.line.mode = .listen := by
      have := h.1
      simp only [LineUnit.idleDue, decide_eq_true_eq] at this
      exact this.1
    split
    · next phase => exact .idles mode phase
    · next phase => exact .line _ (.expiryDeferred h.1 (by simpa using phase))
  · exact .nothing

/-- An event that has an effect where its condition holds, and none elsewhere. -/
theorem PartEffect.of_ite {s t u : State} {p : Prop} [Decidable p] (h : (if p then t else s) = u)
    (effect : p → PartEffect s .nothing t) : PartEffect s .nothing u :=
  h ▸ keeps_ite (I := PartEffect s .nothing) .nothing effect

/-- What a command can do, by command. -/
theorem exec_effects {c : Instr} {s t : State} (h : exec c s = .next t) : Effects c s t := by
  cases c with
  | nop => cases h; exact .nothing rfl
  | configure rate holdTb idle lease => cases h; exact s.runCommand_effects _ fun r _ => r.configure_effects _ _ _ _
  | setMode mode => cases h; exact s.runCommand_effects _ fun r _ => r.setMode_effects _
  | rouse => cases h; exact s.runCommand_effects _ fun r _ => r.rouse_effects
  | define handle role len permits limit mask =>
    cases h; exact s.runCommand_effects _ fun r _ => r.define_effects _ _ _ _ _ _
  | amend entry selector permits mask limit =>
    cases h
    refine s.runCommand_effects _ fun r _ => State.withEntry_effects fun e he => ?_
    have state : (r.entry e).state.working = true := by simpa using he
    split
    · next args => exact .amends e _ _ _ _ state args
    · exact .replies _ _ (by decide) (by simp)
  | stage entry offset data =>
    cases h
    exact s.runCommand_effects _ fun r _ => State.withEntry_effects fun e he => State.stage_effects (by simpa using he) _ _
  | commit entry =>
    cases h
    exact s.runCommand_effects _ fun r _ => State.withEntry_effects fun e he => State.commit_effects (by simpa using he)
  | discard entry =>
    cases h
    exact s.runCommand_effects _ fun r _ => State.withEntry_effects fun e he => State.discard_effects (by simpa using he)
  | read entry offset count =>
    cases h; exact s.runCommand_effects _ fun r _ => State.withEntry_effects fun e _ => r.read_effects e _ _
  | describe entry =>
    cases h
    refine s.runCommand_effects _ fun r _ => State.withEntry_effects fun e _ => .replies _ _ (by decide) ?_
    simp [State.description, handleBytes, numberBytes, causeBytes, halfBytes]
  | find handle =>
    cases h
    refine s.runCommand_effects _ fun r _ => ?_
    unfold State.find
    split
    · exact .replies _ _ (by decide) (by simp)
    · split <;> exact .replies _ _ (by decide) (by simp)
  | retire entry =>
    cases h; exact s.runCommand_effects _ fun r _ => State.withEntry_effects fun e _ => r.retire_effects e
  | hold entry =>
    cases h
    exact s.runCommand_effects _ fun r _ => State.withEntry_effects fun e he => State.hold_effects (by simpa using he)
  | letGo entry force =>
    cases h; exact s.runCommand_effects _ fun r _ => State.withEntry_effects fun e _ => State.letGo_effects _
  | take => cases h; exact s.runCommand_effects _ fun r _ => r.take_effects
  | lineStatus => cases h; exact s.runCommand_effects _ fun r _ => .emptiesConditions
  | restart => cases h; exact s.runCommand_effects _ fun r _ => r.restart_effects
  | csFall => obtain ⟨_, he, heff⟩ := execCsFall_effects s; cases he.symm.trans h; exact .part rfl heff
  | csRise bytes => obtain ⟨_, he, heff⟩ := execCsRise_effects bytes s; cases he.symm.trans h; exact .part rfl heff
  | powerOn => cases h; exact .part rfl .powers
  | pinReset => cases h; exact .part rfl .resets
  | resetRelease => obtain ⟨_, he, heff⟩ := execResetRelease_effects s; cases he.symm.trans h; exact .part rfl heff
  | initialisationComplete => exact .part rfl (.of_ite (Host.Outcome.next.inj h) fun stage => .initialised stage)
  | tick =>
    cases h
    split
    · next stage => exact .ticks rfl stage rfl
    · exact .nothing rfl
  | freshnessExpiry e => exact .part rfl (.of_ite (Host.Outcome.next.inj h) fun expires => .freshnessExpires e expires)
  | leaseExpiry k =>
    cases h
    split
    · exact .part rfl (.leaseExpires k _)
    · exact .nothing rfl
  | idleExpiry => obtain ⟨_, he, heff⟩ := execIdleExpiry_effects s; cases he.symm.trans h; exact .part rfl heff
  | deferredIdleExpiry =>
    cases h
    exact .part rfl (State.settleIdle_keeps (I := PartEffect s .nothing) .nothing .idles)
  | segmentHoldExpiry =>
    cases h
    split
    · next q seq =>
      split
      · next hold => exact .part rfl (.holdExpires q seq hold)
      · exact .nothing rfl
    · exact .nothing rfl
  | dominantRunStart =>
    obtain ⟨_, he, heff⟩ := execDominantRunStart_effects s; cases he.symm.trans h; exact .part rfl heff
  | runShortOfBreak =>
    obtain ⟨_, he, heff⟩ := execRunShortOfBreak_effects s; cases he.symm.trans h; exact .part rfl heff
  | breakRecognised => exact .part rfl (.of_ite (Host.Outcome.next.inj h) State.reachBreak_effects)
  | breakEnd => exact .part rfl (.of_ite (Host.Outcome.next.inj h) fun ⟨mode, phase, _⟩ => .line _ (.breakEnds mode phase))
  | headerCharacter b stopDominant =>
    cases h
    split
    · next hc =>
      split
      · exact .part rfl (.headerFails _ hc.1 hc.2)
      · rcases State.headerByte_effects hc.1 hc.2 b with effect | effect
        · exact .part rfl effect
        · exact .decodes _ _ rfl effect
    · exact .nothing rfl
  | headerOvertime =>
    exact .part rfl (.of_ite (Host.Outcome.next.inj h) fun ⟨mode, phase⟩ => .headerFails _ mode phase)
  | spaceCollision =>
    exact .part rfl (.of_ite (Host.Outcome.next.inj h) fun ⟨mode, phase⟩ => .collides mode (.inl phase))
  | responseSpaceEnd => exact .part rfl (.of_ite (Host.Outcome.next.inj h) fun ⟨mode, phase⟩ => .spaceEnds mode phase _)
  | readbackMismatch =>
    exact .part rfl (.of_ite (Host.Outcome.next.inj h) fun ⟨mode, phase, _⟩ => .line _ (.mismatch mode phase))
  | collidedCharacterEnd breakGoesOn =>
    cases h
    split
    · next hc =>
      split
      · next hw => exact .host s (.before (by rw [hw]; rfl)) .restarts
      · split
        · next hw => exact .host s (.before (by rw [hw]; rfl)) s.finishOffline_effects
        · unfold State.collidedEnd
          split
          · exact .part rfl (.collidesInBreak hc.1 (.inr hc.2.1))
          · exact .part rfl (.collides hc.1 (.inr hc.2.1))
    · exact .nothing rfl
  | answerComplete =>
    exact .part rfl (.of_ite (Host.Outcome.next.inj h) fun ⟨mode, phase, _⟩ => .answerCompletes mode phase)
  | responseCharacter b stopDominant =>
    obtain ⟨_, he, heff⟩ := execResponseCharacter_effects b stopDominant s; cases he.symm.trans h; exact .part rfl heff
  | responseWindowDeadline =>
    exact .part rfl (.of_ite (Host.Outcome.next.inj h) fun ⟨mode, phase⟩ => .receptionFails _ mode phase)
  | lineStuck => obtain ⟨_, he, heff⟩ := execLineStuck_effects s; cases he.symm.trans h; exact .part rfl heff
  | recoveringRunEnd =>
    exact .part rfl (.of_ite (Host.Outcome.next.inj h) fun ⟨mode, phase⟩ => .line _ (.runBeforeEnds mode (.inr phase)))
  | recoveryComplete =>
    exact .part rfl (.of_ite (Host.Outcome.next.inj h) fun ⟨mode, phase⟩ => .quiets mode (by rw [phase]; rfl))
  | dormantShortRun => cases h; exact .nothing rfl
  | rouseDetected => exact .part rfl (.of_ite (Host.Outcome.next.inj h) fun mode => .line _ (.rouseSeen mode))
  | rouseRunEnd => exact .part rfl (.of_ite (Host.Outcome.next.inj h) fun ⟨mode, _⟩ => .wakes mode)
  | dormantLineStuck => exact .part rfl (.of_ite (Host.Outcome.next.inj h) fun mode => .wakesStuck mode)
  | rousePulseEnd dominant =>
    obtain ⟨_, he, heff⟩ := execRousePulseEnd_effects dominant s; cases he.symm.trans h; exact .part rfl heff
  | rouseLineRelease => exact .part rfl (.of_ite (Host.Outcome.next.inj h) fun ⟨mode, _⟩ => .rouseEnds mode)
  | rouseStuckTimeout => exact .part rfl (.of_ite (Host.Outcome.next.inj h) fun ⟨mode, _⟩ => .rouseSticks mode)
  | offlineCharacterEnd =>
    cases h
    split
    · next hw => exact .host s (.before (by rw [hw]; rfl)) s.finishOffline_effects
    · exact .nothing rfl
  | restartCharacterEnd =>
    cases h
    split
    · next hw => exact .host s (.before (by rw [hw]; rfl)) .restarts
    · exact .nothing rfl
  | takeEndedVacate =>
    cases h
    split
    · next work => exact .part rfl (.vacates _ _ work)
    · exact .nothing rfl
  | startBitSample dominant =>
    obtain ⟨_, he, heff⟩ := execStartBitSample_effects dominant s; cases he.symm.trans h; exact .part rfl heff

/-! ## Keeping an invariant -/

/-- An invariant I that holds together with the premises G is kept by every step, when the Host Port's handing over and
refusing keep it and every effect does. -/
theorem step_keeps_of_effects {G I : State → Prop}
    (pending : ∀ (s : State) (rest : List Instr), G s → I s → G { s with pending := rest } ∧ I { s with pending := rest })
    (hands : ∀ (s : State) (c : Instr), s.host.state = .idle → G s → I s →
      G (s.setWork (.handed c)) ∧ I (s.setWork (.handed c)))
    (refuses : ∀ (s : State) (status : Status), s.host.state = .idle → status ≠ .busy → G s → I s →
      I (s.complete status []))
    (host : ∀ s t : State, G s → I s → Work.taken s.host.work = true → HostEffect s t → I t)
    (part : ∀ {draw : Drawn} (s t : State), G s → I s → PartEffect s draw t → I t) {s t : State} (h : step s = .next t) (given : G s)
    (ok : I s) : I t := by
  rcases step_eq_next h with rfl | ⟨c, rest, he⟩
  · exact ok
  · obtain ⟨given, ok⟩ := pending s rest given ok
    cases exec_effects he with
    | nothing eq => exact eq ▸ ok
    | part event effect => exact part _ _ given ok effect
    | ticks tick stage eq => exact eq ▸ part _ _ given ok (.ticks stage)
    | decodes b dominant character effect => exact part _ _ given ok effect
    | refused status idle known eq => exact eq ▸ refuses _ status idle known.1 given ok
    | host r carried effect =>
      cases carried with
      | before work => exact host _ _ given ok work effect
      | now c idle =>
        obtain ⟨given, ok⟩ := hands _ c idle given ok
        exact host _ _ given ok rfl effect

end Sys2Proof.Machine
end

section
/-! PROOFS. The bytes of the Cell Pool stay in canonical form (R28): only STAGE and data from the line write bytes, and
each writes them with `CellPool.writeRecord`. -/

namespace Sys2Proof.Machine

/-! ## Operations that write no byte -/

@[simp] theorem State.enterQuiet_bytes (s : State) (p : Phase) : (s.enterQuiet p).pool.bytes = s.pool.bytes :=
  State.enterQuiet_keeps (I := fun t => t.pool.bytes = s.pool.bytes) rfl fun _ _ => by simp

@[simp] theorem State.settleIdle_bytes (s : State) : s.settleIdle.pool.bytes = s.pool.bytes :=
  State.settleIdle_keeps (I := fun t => t.pool.bytes = s.pool.bytes) rfl fun _ _ => by simp

@[simp] theorem State.freeCurrent_bytes (s : State) (e : EntryNo) : (s.freeCurrent e).pool.bytes = s.pool.bytes := by
  rw [State.freeCurrent_eq]; rfl

@[simp] theorem State.freeStaged_bytes (s : State) (e : EntryNo) : (s.freeStaged e).pool.bytes = s.pool.bytes := by
  rw [State.freeStaged_eq]; rfl

@[simp] theorem State.teardown_bytes (s : State) (e : EntryNo) : (s.teardown e).pool.bytes = s.pool.bytes := by
  rw [State.teardown_eq]

@[simp] theorem State.endEntry_pool (s : State) (e : EntryNo) : (s.endEntry e).pool = (s.teardown e).pool := rfl

@[simp] theorem State.postFrame_pool (s : State) (c : Cause) : (s.postFrame c).pool = s.pool := by
  unfold State.postFrame
  split <;> rfl

@[simp] theorem State.postAt_pool (s : State) (e : Option EntryNo) (c : Cause) : (s.postAt e c).pool = s.pool := by
  unfold State.postAt
  split <;> rfl

@[simp] theorem State.forceFree_pool (s : State) (k : SlotNo) (e : EntryNo) : (s.forceFree k e).pool = s.pool := by
  unfold State.forceFree
  repeat' split
  all_goals rfl

@[simp] theorem State.decideRetire_pool (s : State) (e : EntryNo) (t : Tag) : (s.decideRetire e t).pool = s.pool := by
  unfold State.decideRetire
  dsimp only
  split <;> rfl

@[simp] theorem State.sendRequest_pool (s : State) : s.sendRequest.pool = s.pool := by
  unfold State.sendRequest
  dsimp only
  repeat' split
  all_goals simp

@[simp] theorem State.enterSpace_pool (s : State) (e : EntryNo) (a : Action) (t : Tag) :
    (s.enterSpace e a t).pool = s.pool := by
  unfold State.enterSpace
  split <;> simp

@[simp] theorem State.meetSequence_bytes (s : State) (continuation : Bool) :
    (s.meetSequence continuation).pool.bytes = s.pool.bytes := by
  unfold State.meetSequence
  split <;> simp

@[simp] theorem State.decodeAction_bytes (s : State) (h : Handle) (a : Action) (t : Tag) :
    (s.decodeAction h a t).pool.bytes = s.pool.bytes := by
  unfold State.decodeAction
  dsimp only
  split <;> simp [State.startFrame]

@[simp] theorem State.headerFault_bytes (s : State) (c : LineCondition) :
    (s.headerFault c).pool.bytes = s.pool.bytes := by simp [State.headerFault]

@[simp] theorem State.headerByte_bytes (s : State) (b : Byte) : (s.headerByte b).pool.bytes = s.pool.bytes := by
  unfold State.headerByte State.decodeHeader State.keepHeader
  repeat' split
  all_goals simp

/-! ## Operations that write bytes -/

theorem MemoryOk.congr {s t : State} (ok : MemoryOk s) (h : t.pool.bytes = s.pool.bytes) : MemoryOk t := by
  rw [MemoryOk, h]
  exact ok

/-- An allocation takes cells and writes no byte (R30). -/
theorem CellPool.allocate_bytes {p q : CellPool} {count : Nat} {cells : List CellNo}
    (h : p.allocate count = some (cells, q)) : q.bytes = p.bytes := by
  rw [(CellPool.allocate_eq_some.1 h).2.2]

/-- New cells filled with 00h and then written keep the canonical form (R30). -/
theorem MemoryOk.wf_fill {s : State} (ok : MemoryOk s) {count : Nat} {cells : List CellNo} {p : CellPool}
    (h : s.pool.allocate count = some (cells, p)) (data : List Byte) :
    Memory.wf (CellPool.writeRecord cells (p.zero cells) 0 data).bytes = true := by
  have hp : Memory.wf p.bytes = true := by
    rw [CellPool.allocate_bytes h]
    exact ok
  exact CellPool.wf_writeRecord (CellPool.wf_zero hp _) _ _ _

theorem MemoryOk.applyStore {s : State} (ok : MemoryOk s) (e : EntryNo) (data : List Byte) :
    MemoryOk (s.applyStore e data) := by
  unfold State.applyStore
  dsimp only
  split
  · exact CellPool.wf_writeRecord ok _ _ _
  · split
    · exact ok
    · next h => exact ok.wf_fill h _

theorem MemoryOk.applyCapture {s : State} (ok : MemoryOk s) (e : EntryNo) (data : List Byte) (b : Byte) :
    MemoryOk (s.applyCapture e data b) := by
  unfold State.applyCapture
  dsimp only
  split
  · exact CellPool.wf_writeRecord ok _ _ _
  · split
    · exact ok
    · next h => exact ok.wf_fill h _

theorem MemoryOk.openAssembly {s : State} (ok : MemoryOk s) (e : EntryNo) (data : List Byte) (b : Byte) :
    MemoryOk (s.openAssembly e data b) := by
  unfold State.openAssembly
  dsimp only
  split
  · exact ok
  · next h => exact ok.wf_fill h _

theorem MemoryOk.completeAssembly {s : State} (ok : MemoryOk s) (e : EntryNo) (q : SequenceContext) (data : List Byte)
    (b : Byte) : MemoryOk (s.completeAssembly e q data b) := by
  have hw := CellPool.wf_writeRecord ok ((s.entry e).staged.getD []) (16 * q.next) data
  simpa [MemoryOk, State.completeAssembly] using hw

theorem MemoryOk.captureGood {s : State} (ok : MemoryOk s) (e : EntryNo) : MemoryOk (s.captureGood e) := by
  unfold State.captureGood
  dsimp only
  split
  · exact ok.applyCapture _ _ _
  · split
    · exact ok.openAssembly _ _ _
    · split
      · exact ok.congr (by simp)
      · split
        · exact CellPool.wf_writeRecord ok _ _ _
        · exact ok.completeAssembly _ _ _ _

theorem MemoryOk.fetchAnswered {s : State} (ok : MemoryOk s) (how : FrameEnd) (e : EntryNo) :
    MemoryOk (s.fetchAnswered how e) := by
  unfold State.fetchAnswered
  dsimp only
  repeat' split
  all_goals exact ok.congr (by simp [State.openServe])

theorem MemoryOk.reportToTable {s : State} (ok : MemoryOk s) (how : FrameEnd) (e : EntryNo) :
    MemoryOk (s.reportToTable how e) := by
  unfold State.reportToTable
  split
  · exact ok.congr (by simp)
  · split
    · split
      · exact ok.fetchAnswered how e
      · split
        · exact ok.captureGood e
        · exact ok.congr (by simp)
    · split
      · unfold State.acceptStore
        exact keeps_ite (ok.applyStore _ _) fun _ => ok
      · exact ok
    · split
      · exact ok.congr (by simp)
      · exact ok
    all_goals exact ok

theorem MemoryOk.frameEnd {s : State} (ok : MemoryOk s) (how : FrameEnd) : MemoryOk (s.frameEnd how) := by
  have hs : MemoryOk s.serveRequest := ok.congr (by simp)
  unfold State.frameEnd State.reportEnd
  split
  · exact hs
  · exact MemoryOk.reportToTable (s := (s.serveRequest.reportToClaims how _).setInFlight none)
      (hs.congr (by simp)) how _

theorem MemoryOk.frameCollided {s : State} (ok : MemoryOk s) : MemoryOk s.frameCollided :=
  (ok.frameEnd .collided).congr (by simp [State.frameCollided])

theorem MemoryOk.abandonFrame {s : State} (ok : MemoryOk s) : MemoryOk s.abandonFrame :=
  (ok.frameEnd .abandoned).congr (by simp [State.abandonFrame])

theorem MemoryOk.receptionFault {s : State} (ok : MemoryOk s) (c : Cause) : MemoryOk (s.receptionFault c) :=
  (ok.frameEnd .faulty).congr (by simp [State.receptionFault])

/-! ## The effects -/

theorem State.commitEntry_bytes (s : State) (e : EntryNo) (cells : List CellNo) :
    (s.commitEntry e cells).pool.bytes = s.pool.bytes := by
  have h : (s.retireCurrent e).pool.bytes = s.pool.bytes := by
    unfold State.retireCurrent
    repeat' split
    all_goals simp
  exact h

@[simp] theorem State.tick_bytes (s : State) : s.tick.pool.bytes = s.pool.bytes := by
  unfold State.tick State.idleExpired
  dsimp only
  repeat' split
  all_goals simp

/-- A first STAGE fills its new cells and then writes the host's bytes (R36). -/
theorem MemoryOk.wf_stagedFill {s : State} (ok : MemoryOk s) {count : Nat} {cells : List CellNo} {p : CellPool}
    (h : s.pool.allocate count = some (cells, p)) (e : EntryNo) :
    Memory.wf (s.stagedFill e cells p).bytes = true := by
  have hp : Memory.wf p.bytes = true := by
    rw [CellPool.allocate_bytes h]
    exact ok
  unfold State.stagedFill
  split
  · exact CellPool.wf_copyFrom hp _ _
  · exact CellPool.wf_zero hp _

theorem MemoryOk.hostEffect {s t : State} (ok : MemoryOk s) (effect : HostEffect s t) : MemoryOk t := by
  cases effect with
  | stagesInPlace e cells o data _ => exact CellPool.wf_writeRecord ok _ _ _
  | stages e cells p o data _ _ _ takes => exact CellPool.wf_writeRecord (ok.wf_stagedFill takes e) _ _ _
  | leaves m _ _ => exact ok.congr (by simp [State.completeMode])
  | abandons _ => exact ok.abandonFrame
  | collides _ => exact ok.frameCollided.congr (by simp [State.completeMode])
  | commits e cells _ _ _ => exact ok.congr (State.commitEntry_bytes s e cells)
  | discards e _ _ => exact ok.congr (by simp)
  | amends e selector permits mask limit _ _ =>
    refine ok.congr ?_
    unfold State.amendEntry
    dsimp only
    split <;> rfl
  | tearsDown e _ _ => exact ok.congr (by simp)
  | _ => exact ok

theorem MemoryOk.partEffect {s t : State} (ok : MemoryOk s) {draw : Drawn} (effect : PartEffect s draw t) : MemoryOk t := by
  cases effect with
  | answerCompletes _ _ => exact (ok.frameEnd .completed).congr (by simp)
  | collides _ _ => exact ok.frameCollided.congr (by simp)
  | collidesInBreak _ _ => exact ok.frameCollided
  | spaceEnds _ _ answer => exact ok.congr (by simp)
  | received b _ _ => exact (MemoryOk.frameEnd (s := s.landByte b) ok .received).congr (by simp)
  | lastByteWrong b _ _ => exact MemoryOk.receptionFault (s := s.landByte b) ok .damaged
  | receptionFails c _ _ => exact ok.receptionFault c
  | cut _ _ =>
    exact (MemoryOk.frameEnd (s := s.setCondition .cut) ok .cut).congr (by simp [State.newFrame])
  | sticksInFlight _ _ =>
    exact (MemoryOk.frameEnd (s := s.setCondition .lineStuck) ok .faulty).congr (by simp)
  | sticks _ _ => exact ok.congr (by simp)
  | quiets _ _ => exact ok.congr (by simp)
  | headerFails c _ _ => exact ok.congr (by simp)
  | decodes h a t _ _ => exact ok.congr (by simp)
  | breaksHeader _ _ =>
    exact ok.congr (State.closeSequence_bytes (s.setCondition .headerFraming) ▸ by simp [State.newFrame])
  | holdExpires q _ _ => exact ok.congr (by simp)
  | idles _ _ => exact ok.congr (by simp)
  | ticks _ => exact ok.congr (by simp)
  | powers => rfl
  | _ => exact ok

/-- Settles O52: of all effects only those of STAGE and of the ends of a reception write bytes. -/
theorem stepKeepsMemoryCanonical : Obligations.StepKeepsMemoryCanonical := fun _ _ h ok =>
  step_keeps_of_effects (G := fun _ => True) (fun _ _ _ hs => ⟨trivial, hs⟩) (fun _ _ _ _ hs => ⟨trivial, hs⟩)
    (fun _ _ _ _ _ hs => hs) (fun _ _ _ hs _ effect => hs.hostEffect effect)
    (fun _ _ _ hs effect => hs.partEffect effect) h trivial ok

end Sys2Proof.Machine
end

section
/-! PROOFS. The Line Unit: quiet outside LISTEN, TXD, the landing buffer and the model's flags (R85, R100, R101, R143,
R150). -/

namespace Sys2Proof.Machine

/-! ## Out of LISTEN and into it (R147, R149) -/

theorem LineOk.congr {s t : State} (ok : LineOk s) (h : t.line = s.line) : LineOk t where
  quiet := by rw [h]; exact ok.quiet
  idleRuns := by rw [h]; exact ok.idleRuns
  pulse := by rw [h]; exact ok.pulse
  answer := by rw [h]; exact ok.answer
  rouseSeen := by rw [h]; exact ok.rouseSeen
  deferred := by rw [h]; exact ok.deferred
  runBefore := by rw [h]; exact ok.runBefore
  edge := by rw [h]; exact ok.edge
  asking := by rw [h]; exact ok.asking
  landing := by rw [h]; exact ok.landing
  receiving := by rw [h]; exact ok.receiving

/-- A Line Unit that has left LISTEN with no sequence open, driving TXD as a mode other than LISTEN may. -/
theorem LineOk.of_quit {s : State} {l : LineUnit} {m : LineMode} {x : TxdDrive} (seq : l.seq = none) (mode : m ≠ .listen)
    (txd : x = .released ∨ x = .pulse ∧ m = .rousing) (h : s.line = { l.quit m with txd := x }) : LineOk s where
  quiet _ := by simp [h, LineUnit.quit, seq]
  idleRuns hm := by simp [h, LineUnit.quit, mode] at hm
  pulse hx := by
    rcases txd with rfl | ⟨_, rfl⟩
    · simp [h] at hx
    · simp [h, LineUnit.quit]
  answer hx := by rcases txd with rfl | ⟨rfl, _⟩ <;> simp [h] at hx
  rouseSeen hr := by simp [h, LineUnit.quit] at hr
  deferred hp := by simp [h, LineUnit.quit] at hp
  runBefore hr := by simp [h, LineUnit.quit] at hr
  edge he := by simp [h, LineUnit.quit] at he
  asking ha := by simp [h, LineUnit.quit] at ha
  landing := by simp [h, LineUnit.quit]
  receiving hp := by simp [h, LineUnit.quit] at hp

theorem LineOk.leaveListen (s : State) {m : LineMode} (mode : m ≠ .listen) : LineOk (s.leaveListen m) :=
  .of_quit (l := { s.line with seq := none }) rfl mode (.inl rfl) (s.leaveListen_line m)

theorem LineOk.enterListen (s : State) {p : Phase} (phase : p = .waiting ∨ p = .recovering) :
    LineOk (s.enterListen p) where
  quiet hm := absurd rfl hm
  idleRuns _ := rfl
  pulse := nofun
  answer := nofun
  rouseSeen := nofun
  deferred := nofun
  runBefore _ := ⟨rfl, phase⟩
  edge := nofun
  asking := nofun
  landing := by simp [LineUnit.enter, LineUnit.quit]
  receiving hp := by rcases phase with rfl | rfl <;> cases hp

/-! ## In LISTEN, whatever the phase -/

/-- What the invariant says of the Line Unit in LISTEN apart from its phase. -/
structure LineRuns (l : LineUnit) : Prop where
  mode : l.mode = .listen
  idle : l.idle.isSome = true
  rouseSeen : l.rouseSeen = false
  landing : l.landing.length ≤ 18

theorem LineOk.runs {s : State} (ok : LineOk s) (mode : s.line.mode = .listen) : LineRuns s.line where
  mode := mode
  idle := ok.idleRuns mode
  rouseSeen := by
    cases h : s.line.rouseSeen with
    | false => rfl
    | true =>
      have := ok.rouseSeen h
      simp [mode] at this
  landing := ok.landing

theorem LineRuns.ends {s t : State} (runs : LineRuns s.line) (ends : EndsOnly s t) : LineRuns t.line := by
  rw [ends.line]
  exact ⟨runs.mode, runs.idle, runs.rouseSeen, runs.landing⟩

/-- A byte that lands below the last leaves the buffer within its 18 bytes, and so does the last (R100). -/
theorem LineOk.runs_landByte {s : State} (ok : LineOk s) (mode : s.line.mode = .listen) (phase : s.line.phase = .receiving)
    (b : Byte) : LineRuns (s.landByte b).line := by
  obtain ⟨hm, hi, hr, _⟩ := ok.runs mode
  obtain ⟨below, bound⟩ := ok.receiving phase
  refine ⟨hm, hi, hr, ?_⟩
  simp only [State.landByte, List.length_append, List.length_singleton]
  omega

/-- A frame of the Line Unit in WAITING, SKIPPING or RECOVERING, or DORMANT once a pending expiry is settled (R101). -/
theorem LineRuns.enterQuiet {s : State} (runs : LineRuns s.line) (asking : s.line.frame.asking = false) {p : Phase}
    (quiet : p.quiet = true) : LineOk (s.enterQuiet p) := by
  unfold State.enterQuiet State.settleIdle
  split
  · exact LineOk.leaveListen _ (by decide)
  · next pending =>
    have pending : s.line.idlePending = false := by simpa [runs.mode, quiet] using pending
    exact {
      quiet := fun hm => absurd runs.mode hm
      idleRuns := fun _ => runs.idle
      pulse := nofun
      answer := nofun
      rouseSeen := fun hr => by simp [runs.rouseSeen] at hr
      deferred := fun hp => by simp [pending] at hp
      runBefore := nofun
      edge := nofun
      asking := fun ha => by simp [asking] at ha
      landing := runs.landing
      receiving := by rintro rfl; cases quiet }

theorem LineRuns.newFrame {s : State} (runs : LineRuns s.line) : LineOk s.newFrame where
  quiet hm := absurd runs.mode hm
  idleRuns _ := rfl
  pulse := nofun
  answer := nofun
  rouseSeen hr := by simp [State.newFrame, runs.rouseSeen] at hr
  deferred _ := rfl
  runBefore := nofun
  edge := nofun
  asking := nofun
  landing := runs.landing
  receiving := nofun

/-! ## A request taken, and the end of a frame -/

/-- The request for the answer leaves none waiting (R66). -/
theorem State.answerRequest_asking (s : State) (e : EntryNo) (a : Action) (t : Tag) :
    (s.answerRequest e a t).line.frame.asking = s.line.frame.asking := by
  unfold State.answerRequest State.placePin State.decideClaim
  dsimp only
  repeat' split
  all_goals rfl

/-- Where a request waits in SPACE alone, none waits once it is served (R66). -/
theorem State.serveRequest_asking {s : State} (h : s.line.frame.asking = true → s.line.phase = .space) :
    s.serveRequest.line.frame.asking = false := by
  unfold State.serveRequest
  split
  · split
    · rw [State.answerRequest_asking]; rfl
    · rfl
  · next hn => cases ha : s.line.frame.asking <;> simp_all

theorem State.frameEnd_asking {s : State} (h : s.line.frame.asking = true → s.line.phase = .space) (how : FrameEnd) :
    (s.frameEnd how).line.frame.asking = false := by
  unfold State.frameEnd
  rw [(State.reportEnd_reports _ how).line]
  exact State.serveRequest_asking h

theorem State.postFrame_line (s : State) (c : Cause) : (s.postFrame c).line = s.line := by
  unfold State.postFrame
  split <;> rfl

/-- A frame in flight that ends in WAITING, SKIPPING or RECOVERING, with a cause posted or none. -/
theorem LineOk.ends_quiet {s t : State} (runs : LineRuns s.line) (asking : s.line.frame.asking = true → s.line.phase = .space)
    {how : FrameEnd} (h : t.line = (s.frameEnd how).line) {p : Phase} (quiet : p.quiet = true) :
    LineOk (t.enterQuiet p) := by
  have hr : LineRuns t.line := by rw [h]; exact runs.ends (s.frameEnd_ends how)
  exact hr.enterQuiet (by rw [h]; exact State.frameEnd_asking asking how) quiet

/-! ## The decode of a header (R97, R105) -/

theorem State.postAt_line (s : State) (e : Option EntryNo) (c : Cause) : (s.postAt e c).line = s.line := by
  unfold State.postAt
  split <;> rfl

/-- A header on the answer path changes nothing of the Line Unit but the frame context (R105). -/
theorem State.enterSpace_line (s : State) (e : EntryNo) (a : Action) (t : Tag) :
    (s.enterSpace e a t).line = { s.line with frame := (s.enterSpace e a t).line.frame } := by
  have hs : s.sendRequest.line = { s.line with frame := s.sendRequest.line.frame } := by
    unfold State.sendRequest
    dsimp only
    repeat' split
    · rfl
    · exact State.serveRequest_line _
    · exact State.serveRequest_line _
  unfold State.enterSpace
  split
  · unfold State.decideRetire
    dsimp only
    split <;> rfl
  all_goals exact hs

/-- What a header makes of the open sequence changes nothing else of the Line Unit (R104, R105). -/
theorem State.meetSequence_line (s : State) (continuation : Bool) :
    (s.meetSequence continuation).line = { s.line with seq := (s.meetSequence continuation).line.seq } := by
  unfold State.meetSequence
  split
  · rfl
  · simp

/-- The last segment of a record is no longer than a cell (R94). -/
theorem segmentSize_le (length s : Nat) : segmentSize length s ≤ 16 := by
  unfold segmentSize segmentCount
  split
  · exact Nat.le_refl 16
  · omega

/-- A reception that the path table starts awaits between 1 and 18 characters (R106, R115). -/
theorem choosePath_receive_bounds {entry : Option EntryNo} {found : Option Found} {a : Action} {t : Tag}
    {continuation : Bool} {e : EntryNo} {n : Nat} (h : choosePath entry found a t continuation = .receive e n) :
    0 < n ∧ n ≤ 18 := by
  unfold choosePath at h
  repeat' split at h
  all_goals cases h
  · exact ⟨by omega, Nat.add_le_add_right (segmentSize_le _ _) 2⟩
  · next hl => exact ⟨by omega, by omega⟩

/-- In LISTEN, in a phase that neither receives nor is quiet, with TXD high and no flag of another phase set. -/
theorem LineRuns.busy {s : State} (runs : LineRuns s.line) (txd : s.line.txd = .released)
    (phase : s.line.phase.quiet = false) (runBefore : s.line.runBefore = false) (edge : s.line.edge = false)
    (asking : s.line.frame.asking = true → s.line.phase = .space)
    (receiving : s.line.phase = .receiving →
      s.line.landing.length < s.line.frame.n.getD 0 ∧ s.line.frame.n.getD 0 ≤ 18) : LineOk s where
  quiet hm := absurd runs.mode hm
  idleRuns _ := runs.idle
  pulse hx := by simp [txd] at hx
  answer hx := by simp [txd] at hx
  rouseSeen hr := by simp [runs.rouseSeen] at hr
  deferred _ := phase
  runBefore hr := by simp [runBefore] at hr
  edge he := by simp [edge] at he
  asking := asking
  landing := runs.landing
  receiving := receiving

theorem LineOk.released_of {s : State} (ok : LineOk s) (mode : s.line.mode = .listen) (phase : s.line.phase ≠ .answering) :
    s.line.txd = .released := by
  cases h : s.line.txd with
  | released => rfl
  | answer => exact absurd (ok.answer h).2 phase
  | pulse =>
    have := ok.pulse h
    simp [mode] at this

theorem LineOk.runBefore_false {s : State} (ok : LineOk s) (waiting : s.line.phase ≠ .waiting)
    (recovering : s.line.phase ≠ .recovering) : s.line.runBefore = false := by
  cases h : s.line.runBefore with
  | false => rfl
  | true =>
    have := (ok.runBefore h).2
    simp_all

theorem LineOk.edge_false {s : State} (ok : LineOk s) (phase : s.line.phase ≠ .receiving) : s.line.edge = false := by
  cases h : s.line.edge with
  | false => rfl
  | true => exact absurd (ok.edge h) phase

theorem LineOk.decodeAction {s : State} (ok : LineOk s) (mode : s.line.mode = .listen) (phase : s.line.phase = .header)
    (h : Handle) (a : Action) (t : Tag) : LineOk (s.decodeAction h a t) := by
  obtain ⟨hm, hi, hr, hl⟩ := ok.runs mode
  have txd := ok.released_of mode (by simp [phase])
  have run := ok.runBefore_false (by simp [phase]) (by simp [phase])
  have edge := ok.edge_false (by simp [phase])
  have met := s.meetSequence_line (s.line.isContinuation h a t)
  unfold State.decodeAction
  dsimp only
  split
  · refine LineRuns.enterQuiet ?_ (by rw [State.postAt_line]; rfl) rfl
    rw [State.postAt_line, met]
    exact ⟨hm, hi, hr, hl⟩
  · refine LineRuns.enterQuiet ?_ (by rw [State.post_line, State.postAt_line]; rfl) rfl
    rw [State.post_line, State.postAt_line, met]
    exact ⟨hm, hi, hr, hl⟩
  · refine LineRuns.busy ?_ ?_ ?_ ?_ ?_ (fun _ => ?_) (fun hp => ?_)
    all_goals rw [State.enterSpace_line, State.postAt_line, State.startFrame] at *
    all_goals dsimp only [State.setInFlight_line] at *
    · rw [met]; exact ⟨hm, hi, hr, hl⟩
    · rw [met]; exact txd
    · rfl
    · rw [met]; exact run
    · rw [met]; exact edge
    · cases hp
  · next e n path =>
    obtain ⟨hpos, hle⟩ := choosePath_receive_bounds path
    refine LineRuns.busy ?_ ?_ ?_ ?_ ?_ (fun ha => ?_) (fun _ => ?_)
    all_goals rw [State.postAt_line, State.startFrame] at *
    all_goals dsimp only [State.setInFlight_line] at *
    · rw [met]; exact ⟨hm, hi, hr, by simp⟩
    · rw [met]; exact txd
    · rfl
    · rw [met]; exact run
    · cases ha
    · exact ⟨hpos, hle⟩

/-! ## The effects -/

/-- A change of the sequence context that opens none in a mode other than LISTEN (R111, R143). -/
theorem LineOk.of_seq {s t : State} (ok : LineOk s) (line : t.line = { s.line with seq := t.line.seq })
    (none : s.line.seq = none → t.line.seq = none) : LineOk t where
  quiet hm := by
    rw [line] at hm ⊢
    obtain ⟨phase, frame, seq, rest⟩ := ok.quiet hm
    exact ⟨phase, frame, none seq, rest⟩
  idleRuns := by rw [line]; exact ok.idleRuns
  pulse := by rw [line]; exact ok.pulse
  answer := by rw [line]; exact ok.answer
  rouseSeen := by rw [line]; exact ok.rouseSeen
  deferred := by rw [line]; exact ok.deferred
  runBefore := by rw [line]; exact ok.runBefore
  edge := by rw [line]; exact ok.edge
  asking := by rw [line]; exact ok.asking
  landing := by rw [line]; exact ok.landing
  receiving := by rw [line]; exact ok.receiving

theorem LineOk.lineEffect {s : State} {l : LineUnit} (ok : LineOk s) (effect : LineEffect s.line l) :
    LineOk { s with line := l } := by
  cases effect with
  | runStarts mode phase =>
    obtain ⟨hm, hi, hr, hl⟩ := ok.runs mode
    refine LineRuns.busy ⟨hm, hi, hr, hl⟩ (ok.released_of mode (by simp [phase])) rfl rfl
      (ok.edge_false (by simp [phase])) (fun ha => ?_) nofun
    have := ok.asking ha
    simp [phase] at this
  | runBeforeEnds mode phase =>
    exact ⟨ok.quiet, ok.idleRuns, ok.pulse, ok.answer, ok.rouseSeen, ok.deferred, nofun, ok.edge, ok.asking, ok.landing,
      ok.receiving⟩
  | edgeSeen mode phase =>
    exact ⟨ok.quiet, ok.idleRuns, ok.pulse, ok.answer, ok.rouseSeen, ok.deferred, ok.runBefore, fun _ => phase, ok.asking,
      ok.landing, ok.receiving⟩
  | breakEnds mode phase =>
    obtain ⟨hm, hi, hr, hl⟩ := ok.runs mode
    refine LineRuns.busy ⟨hm, hi, hr, hl⟩ (ok.released_of mode (by simp [phase])) rfl
      (ok.runBefore_false (by simp [phase]) (by simp [phase])) (ok.edge_false (by simp [phase])) (fun ha => ?_) nofun
    have := ok.asking ha
    simp [phase] at this
  | headerStartBit dominant mode phase =>
    exact ⟨ok.quiet, ok.idleRuns, ok.pulse, ok.answer, ok.rouseSeen, ok.deferred, ok.runBefore, ok.edge, ok.asking,
      ok.landing, ok.receiving⟩
  | responseStartBit dominant seen mode phase =>
    exact ⟨ok.quiet, ok.idleRuns, ok.pulse, ok.answer, ok.rouseSeen, ok.deferred, ok.runBefore, nofun, ok.asking,
      ok.landing, ok.receiving⟩
  | headerKept b check mode phase =>
    exact ⟨ok.quiet, ok.idleRuns, ok.pulse, ok.answer, ok.rouseSeen, ok.deferred, ok.runBefore, ok.edge, ok.asking,
      ok.landing, ok.receiving⟩
  | byteLands b mode phase room =>
    have lands : (s.line.landing ++ [b]).length = s.line.landing.length + 1 := by simp
    have bound := (ok.receiving phase).2
    exact ⟨fun hm => absurd mode hm, ok.idleRuns, ok.pulse, ok.answer, ok.rouseSeen, ok.deferred, ok.runBefore, nofun,
      ok.asking, show (s.line.landing ++ [b]).length ≤ 18 by omega, fun _ => ⟨show _ < _ from lands ▸ room, bound⟩⟩
  | mismatch mode phase =>
    exact ⟨ok.quiet, ok.idleRuns, nofun, nofun, ok.rouseSeen, ok.deferred, ok.runBefore, ok.edge, ok.asking, ok.landing,
      ok.receiving⟩
  | rouseSeen mode =>
    exact ⟨ok.quiet, ok.idleRuns, ok.pulse, ok.answer, fun _ => mode, ok.deferred, ok.runBefore, ok.edge, ok.asking,
      ok.landing, ok.receiving⟩
  | pulseEnds mode =>
    exact ⟨ok.quiet, ok.idleRuns, nofun, nofun, ok.rouseSeen, ok.deferred, ok.runBefore, ok.edge, ok.asking, ok.landing,
      ok.receiving⟩
  | expiryDeferred due phase =>
    have mode : s.line.mode = .listen := (of_decide_eq_true due).1
    exact ⟨fun hm => absurd mode hm, ok.idleRuns, ok.pulse, ok.answer, ok.rouseSeen, fun _ => phase, ok.runBefore,
      ok.edge, ok.asking, ok.landing, ok.receiving⟩

/-- A COMMIT leaves the Line Unit alone. -/
theorem State.commitEntry_line (s : State) (e : EntryNo) (cells : List CellNo) :
    (s.commitEntry e cells).line = s.line := by
  unfold State.commitEntry State.retireCurrent
  dsimp only [State.setEntry_line]
  repeat' split
  · rfl
  · rfl
  · rw [State.freeCurrent_eq]

theorem State.amendEntry_line (s : State) (e : EntryNo) (selector permits : Byte) (mask limit : Half) :
    (s.amendEntry e selector permits mask limit).line = s.line := by
  unfold State.amendEntry
  dsimp only
  split <;> rfl

/-- The Line Unit as every reset leaves it, with any configuration (R143, R144). -/
theorem LineOk.of_reset {s : State} (rate : Rate) (hold idleLimit : Nat)
    (h : s.line = { LineUnit.reset with rate := rate, hold := hold, idleLimit := idleLimit }) : LineOk s :=
  .of_quit (l := { LineUnit.reset with rate := rate, hold := hold, idleLimit := idleLimit }) (m := .offline) rfl (by decide)
    (.inl rfl) h

theorem LineOk.hostEffect {s t : State} (ok : LineOk s) (effect : HostEffect s t) : LineOk t := by
  cases effect with
  | configures r holdTb idle lease _ mode =>
    exact ⟨ok.quiet, ok.idleRuns, ok.pulse, ok.answer, ok.rouseSeen, ok.deferred, ok.runBefore, ok.edge, ok.asking,
      ok.landing, ok.receiving⟩
  | leaves m target _ =>
    exact (LineOk.leaveListen s (by rcases target with rfl | rfl <;> decide)).congr rfl
  | abandons _ => exact (LineOk.leaveListen _ (by decide)).congr rfl
  | collides _ => exact (LineOk.leaveListen _ (by decide)).congr rfl
  | enters _ => exact (LineOk.enterListen s (.inl rfl)).congr rfl
  | quits m target mode =>
    refine LineOk.congr (s := s.quitListen m) (.of_quit (l := s.line) (ok.quiet mode).2.2.1 ?_ (.inl rfl) rfl) rfl
    rcases target with rfl | rfl <;> decide
  | rouses mode =>
    exact LineOk.of_quit (l := s.line) (ok.quiet (by simp [mode])).2.2.1 (by decide) (.inr ⟨rfl, rfl⟩) rfl
  | amends e selector permits mask limit _ _ => exact ok.congr (s.amendEntry_line _ _ _ _ _)
  | commits e cells _ _ _ => exact ok.congr (s.commitEntry_line e cells)
  | discards e _ _ => exact ok.congr (by simp [State.freeStaged_eq])
  | tearsDown e _ _ =>
    have torn : LineOk (s.teardown e) :=
      ok.of_seq (s.teardown_reports e).line fun h => by simp [State.teardown_eq, h]
    exact torn.congr (by simp only [State.complete_line, State.vacate_line, State.clear_line])
  | restarts => exact .of_reset _ _ _ rfl
  | _ => exact ok.congr rfl

/-! ## The tick (R150) -/

/-- The machine once every block has counted a tick, before the idle expiry and the postings (R54, R55, R73, R150). -/
def State.counted (s : State) : State :=
  { s with
    table := s.table.ticked, claims := { s.claims with slots := s.claims.slots.map Slot.ticked }
    line := s.line.idleTicked }

/-- A tick: the blocks count, an idle expiry that is due comes, and the postings are made. -/
theorem State.tick_eq (s : State) :
    s.tick = { (if s.line.idleTicked.idleDue = true then s.counted.idleExpired else s.counted) with
      attention := s.attention.postTick s.orderCount
        (s.table.tickPostings ++ s.claims.tickPostings ++ s.line.idleTicked.idlePostings)
      orderCount := s.orderCount + 1 } := by
  have ha : s.counted.idleExpired.attention = s.attention := by
    unfold State.idleExpired
    split
    · exact State.closeSequence_attention _
    · rfl
  have ho : s.counted.idleExpired.orderCount = s.orderCount := by
    unfold State.idleExpired
    split
    · exact State.closeSequence_orderCount _
    · rfl
  have unfolded : s.tick =
      (fun r : State => { r with
        attention := r.attention.postTick r.orderCount
          (s.table.tickPostings ++ s.claims.tickPostings ++ s.line.idleTicked.idlePostings)
        orderCount := r.orderCount + 1 })
      (if s.line.idleTicked.idleDue = true then s.counted.idleExpired else s.counted) := rfl
  rw [unfolded]
  dsimp only
  split
  · rw [ha, ho]
  · rfl

theorem LineUnit.idleDue_iff (l : LineUnit) :
    l.idleDue = true ↔ l.mode = .listen ∧ l.idleLimit ≠ 0 ∧ l.idle = some (idleTarget l.idleLimit) := by
  simp [LineUnit.idleDue]

/-- The idle timer counts in LISTEN and changes nothing else (R150). -/
theorem LineUnit.idleTicked_eq (l : LineUnit) :
    l.idleTicked = { l with idle := if l.mode = .listen then l.idle.map (· + 1) else l.idle } := by
  unfold LineUnit.idleTicked
  split <;> rfl

theorem LineOk.counted {s : State} (ok : LineOk s) : LineOk s.counted where
  quiet hm := by
    simp only [State.counted, LineUnit.idleTicked_eq] at hm ⊢
    simpa only [hm, if_false] using ok.quiet hm
  idleRuns hm := by
    simp only [State.counted, LineUnit.idleTicked_eq] at hm ⊢
    simpa only [hm, if_true, Option.isSome_map] using ok.idleRuns hm
  pulse := by simp only [State.counted, LineUnit.idleTicked_eq]; exact ok.pulse
  answer := by simp only [State.counted, LineUnit.idleTicked_eq]; exact ok.answer
  rouseSeen := by simp only [State.counted, LineUnit.idleTicked_eq]; exact ok.rouseSeen
  deferred := by simp only [State.counted, LineUnit.idleTicked_eq]; exact ok.deferred
  runBefore := by simp only [State.counted, LineUnit.idleTicked_eq]; exact ok.runBefore
  edge := by simp only [State.counted, LineUnit.idleTicked_eq]; exact ok.edge
  asking := by simp only [State.counted, LineUnit.idleTicked_eq]; exact ok.asking
  landing := by simp only [State.counted, LineUnit.idleTicked_eq]; exact ok.landing
  receiving := by simp only [State.counted, LineUnit.idleTicked_eq]; exact ok.receiving

theorem LineOk.tick {s : State} (ok : LineOk s) : LineOk s.tick := by
  rw [State.tick_eq]
  split
  · next due =>
    unfold State.idleExpired
    split
    · exact LineOk.of_quit (l := s.counted.closeSequence.line) (m := .dormant) (by simp) (by decide) (.inl rfl) rfl
    · next quiet =>
      exact (ok.counted.lineEffect (.expiryDeferred due (by simpa using quiet))).congr rfl
  · exact ok.counted.congr rfl

/-- No request waits outside SPACE. -/
theorem LineOk.asking_false {s : State} (ok : LineOk s) (phase : s.line.phase ≠ .space) :
    s.line.frame.asking = false := by
  cases h : s.line.frame.asking with
  | false => rfl
  | true => exact absurd (ok.asking h) phase

theorem Phase.ne_space_of_not_inFlight {p : Phase} (h : p.inFlight = false) : p ≠ .space := by
  rintro rfl
  cases h

/-- At the end of the response space the part drives its answer (R98). -/
theorem LineOk.spaceEnds {s t : State} (ok : LineOk s) (mode : s.line.mode = .listen) (phase : s.line.phase = .space)
    {f : FrameContext} (asking : f.asking = false)
    (h : t.line = { s.line with phase := .answering, collided := false, txd := .answer, frame := f }) : LineOk t := by
  obtain ⟨_, idle, rouse, landing⟩ := ok.runs mode
  have run := ok.runBefore_false (by simp [phase]) (by simp [phase])
  have edge := ok.edge_false (by simp [phase])
  constructor <;> simp_all [Phase.quiet]

theorem LineOk.partEffect {s t : State} (ok : LineOk s) {draw : Drawn} (effect : PartEffect s draw t) : LineOk t := by
  cases effect with
  | line l effect => exact ok.lineEffect effect
  | answerCompletes mode _ => exact LineOk.ends_quiet (ok.runs mode) ok.asking rfl rfl
  | collides mode _ => exact LineOk.ends_quiet (ok.runs mode) ok.asking (State.postFrame_line _ _) rfl
  | collidesInBreak mode _ => exact ((ok.runs mode).ends s.frameCollided_ends).newFrame
  | spaceEnds mode phase answer =>
    refine ok.spaceEnds mode phase (f := { s.serveRequest.line.frame with answer := answer })
      (State.serveRequest_asking ok.asking) ?_
    dsimp only
    rw [State.serveRequest_line]
  | received b mode phase =>
    exact LineOk.ends_quiet (ok.runs_landByte mode phase b) ok.asking rfl rfl
  | lastByteWrong b mode phase =>
    exact LineOk.ends_quiet (ok.runs_landByte mode phase b) ok.asking (State.postFrame_line _ _) rfl
  | receptionFails c mode phase =>
    exact LineOk.ends_quiet (ok.runs mode) ok.asking (State.postFrame_line _ _) rfl
  | cut mode phase =>
    refine LineRuns.newFrame ?_
    rw [State.postFrame_line]
    exact LineRuns.ends (s := s.setCondition .cut) (ok.runs mode) (State.frameEnd_ends _ .cut)
  | sticksInFlight mode phase => 
    exact LineOk.ends_quiet (s := s.setCondition .lineStuck) (ok.runs mode) ok.asking rfl rfl
  | sticks mode phase =>
    exact LineRuns.enterQuiet (s := s.setCondition .lineStuck) (ok.runs mode)
      (ok.asking_false (Phase.ne_space_of_not_inFlight phase)) rfl
  | quiets mode phase =>
    exact (ok.runs mode).enterQuiet (ok.asking_false (Phase.ne_space_of_not_inFlight phase)) rfl
  | headerFails c mode phase =>
    obtain ⟨hm, hi, hr, hl⟩ := ok.runs mode
    refine LineRuns.enterQuiet ?_ ?_ rfl
    · rw [State.breakSequence_line]
      exact ⟨hm, hi, hr, hl⟩
    · rw [State.breakSequence_line]
      exact ok.asking_false (by simp [phase])
  | decodes h a t mode phase => exact ok.decodeAction mode phase h a t
  | breaks mode phase => exact (ok.runs mode).newFrame
  | breaksHeader mode phase =>
    refine LineRuns.newFrame ?_
    rw [State.breakSequence_line]
    obtain ⟨hm, hi, hr, hl⟩ := ok.runs mode
    exact ⟨hm, hi, hr, hl⟩
  | wakes _ => exact LineOk.enterListen s (.inl rfl)
  | wakesStuck _ => exact LineOk.enterListen _ (.inr rfl)
  | rouseEnds _ => exact (LineOk.enterListen s (.inl rfl)).congr rfl
  | rouseSticks _ => exact (LineOk.enterListen _ (.inr rfl)).congr rfl
  | holdExpires q _ _ => exact ok.of_seq s.breakSequence_reports.line fun _ => by simp
  | idles mode phase => exact LineOk.leaveListen s (by decide)
  | ticks _ => exact ok.tick
  | powers => exact .of_reset _ _ _ rfl
  | resets => exact .of_reset _ _ _ rfl
  | initialised _ => exact .of_reset _ _ _ rfl
  | _ => exact ok.congr rfl

/-- Settles O53: every effect leaves the Line Unit in one of few forms: out of LISTEN, just in it, in a quiet phase, at a
break, or in the phase an event of the frame brings. -/
theorem stepKeepsTheLineUnitConsistent : Obligations.StepKeepsTheLineUnitConsistent := fun _ _ h ok =>
  step_keeps_of_effects (G := fun _ => True) (fun _ _ _ hs => ⟨trivial, hs.congr rfl⟩)
    (fun _ _ _ _ hs => ⟨trivial, hs.congr rfl⟩) (fun _ _ _ _ _ hs => hs.congr rfl)
    (fun _ _ _ hs _ effect => hs.hostEffect effect) (fun _ _ _ hs effect => hs.partEffect effect) h trivial ok

end Sys2Proof.Machine
end

section
/-! PROOFS. The Host Port: what its five states say of READY, CS, SDO and the command outstanding (R165 to R175). -/

namespace Sys2Proof.Machine

/-! ## What the invariant depends on -/

/-- An event that leaves the Host Port alone, and neither enters nor leaves ROUSING. -/
theorem HostOk.congr {s t : State} (ok : HostOk s) (host : t.host = s.host)
    (mode : t.line.mode = .rousing ↔ s.line.mode = .rousing) : HostOk t where
  initialising := by rw [host]; exact ok.initialising
  idle := by rw [host]; exact ok.idle
  shifting := by rw [host]; exact ok.shifting
  working := by rw [host]; exact ok.working
  workingBusy := by rw [host]; exact ok.workingBusy
  rousing := by rw [host, mode]; exact ok.rousing
  released := by rw [host]; exact ok.released
  neverBusy := by rw [host]; exact ok.neverBusy
  replyFits := by rw [host]; exact ok.replyFits
  bufferFits := by rw [host]; exact ok.bufferFits

theorem HostOk.of_mode {s t : State} (ok : HostOk s) (host : t.host = s.host) (before : s.line.mode ≠ .rousing)
    (after : t.line.mode ≠ .rousing) : HostOk t :=
  ok.congr host ⟨fun h => absurd h after, fun h => absurd h before⟩

/-- A command can be taken or completed in the states in which the port is not in a reset or a transaction of its own. -/
theorem HostOk.serving {s : State} (ok : HostOk s) (port : s.host.work ≠ none ∨ s.host.state = .idle) :
    s.host.stage = .complete ∧
      (s.host.state = .workingBusy ∧ s.host.csLow = true ∨ s.host.state ≠ .workingBusy ∧ s.host.csLow = false) := by
  cases state : s.host.state with
  | initialising => simp_all [ok.initialising state]
  | idle => simp_all [ok.idle state]
  | shifting => simp_all [ok.shifting state]
  | working => simp_all [ok.working state]
  | workingBusy =>
    obtain ⟨cs, held, initialising, _⟩ := ok.workingBusy state
    have work : s.host.work ≠ none := port.resolve_right (by simp [state])
    refine ⟨?_, .inl ⟨rfl, cs⟩⟩
    cases stage : s.host.stage with
    | held => exact absurd stage held
    | initialising => exact absurd (initialising stage) work
    | complete => rfl

/-- A command completes (R168, R169). -/
theorem HostOk.completed {s t : State} (ok : HostOk s) (port : s.host.work ≠ none ∨ s.host.state = .idle)
    {status : Status} {data : List Byte} (known : status ≠ .busy) (size : data.length ≤ 40)
    (host : t.host = s.host.completed status data) (mode : t.line.mode ≠ .rousing) : HostOk t := by
  obtain ⟨stage, at_⟩ := ok.serving port
  have released := ok.released
  have buffer := ok.bufferFits
  rcases at_ with ⟨state, cs⟩ | ⟨state, cs⟩ <;>
    constructor <;> simp_all [HostPort.completed, Work.waitingReply]

/-- A command is outstanding (R168, R173, R174). -/
theorem HostOk.outstanding {s t : State} (ok : HostOk s) (port : s.host.work ≠ none ∨ s.host.state = .idle) {w : Work}
    (size : (Work.waitingReply (some w)).length ≤ 40) (host : t.host = s.host.outstanding w)
    (mode : t.line.mode = .rousing ↔ w = .rouse) : HostOk t := by
  obtain ⟨stage, at_⟩ := ok.serving port
  have released := ok.released
  have buffer := ok.bufferFits
  have busy := ok.neverBusy
  have reply := ok.replyFits
  rcases at_ with ⟨state, cs⟩ | ⟨state, cs⟩ <;>
    constructor <;> simp_all [HostPort.outstanding]

/-! ## The edges of CS and the resets (R166 to R172) -/

theorem HostOk.not_rousing {s : State} (ok : HostOk s) (work : s.host.work ≠ some .rouse) : s.line.mode ≠ .rousing :=
  fun h => work (ok.rousing.1 h)

/-- A fall of CS that the port reads in IDLE: the reply slot goes out (R166, R168). -/
theorem HostOk.shows_slot {s : State} (ok : HostOk s) (state : s.host.state = .idle) :
    HostOk { s with host := { s.host with
      csLow := true, state := .shifting, sdo := some s.host.slot.image, buffer := [] } } := by
  obtain ⟨ready, _, work, stage⟩ := ok.idle state
  exact {
    initialising := nofun, idle := nofun, shifting := fun _ => ⟨ready, rfl, work, stage⟩, working := nofun
    workingBusy := nofun, rousing := ok.rousing, released := nofun, neverBusy := ok.neverBusy, replyFits := ok.replyFits
    bufferFits := Nat.zero_le 42 }

/-- A fall of CS that the port reads with READY deasserted: BUSY goes out (R166, R168). -/
theorem HostOk.shows_busy {s : State} (ok : HostOk s) {stage : ResetStage} (ready : s.host.ready = false)
    (held : stage ≠ .held) (initialising : stage = .initialising → s.host.work = none)
    (complete : stage = .complete → s.host.work ≠ none) :
    HostOk { s with host := { s.host with
      stage := stage, csLow := true, state := .workingBusy, sdo := some busyImage, buffer := [] } } where
  initialising := nofun
  idle := nofun
  shifting := nofun
  working := nofun
  workingBusy _ := ⟨rfl, held, initialising, by simp [ready]; exact fun w c => complete c w⟩
  rousing := ok.rousing
  released := nofun
  neverBusy := ok.neverBusy
  replyFits := ok.replyFits
  bufferFits := Nat.zero_le 42

/-- While a reset is held the port is INITIALISING with no command outstanding (R172). -/
theorem HostOk.of_held {s : State} (ok : HostOk s) (stage : s.host.stage = .held) :
    s.host.state = .initialising ∧ s.host.ready = false ∧ s.host.work = none ∧ s.host.sdo = none := by
  cases state : s.host.state with
  | initialising =>
    obtain ⟨ready, work, _, sdo, _⟩ := ok.initialising state
    exact ⟨rfl, ready, work, sdo⟩
  | idle => simp [ok.idle state] at stage
  | shifting => simp [ok.shifting state] at stage
  | working => simp [ok.working state] at stage
  | workingBusy => exact absurd stage (ok.workingBusy state).2.1

theorem HostOk.portEffect {s : State} {h : HostPort} (ok : HostOk s) (effect : PortEffect s.host h) :
    HostOk { s with host := h } := by
  cases effect with
  | fall cs stage =>
    unfold HostPort.select
    split
    · next state => exact ok.shows_slot state
    · next state =>
      obtain ⟨ready, _, work, complete⟩ := ok.working state
      exact ok.shows_busy ready stage (fun h => by simp [complete] at h) fun _ => work
    · next state =>
      obtain ⟨ready, work, complete, _⟩ := ok.initialising state
      exact ok.shows_busy ready stage (fun _ => work) fun h => absurd h complete
    · exact ok
    · exact ok
  | fallInReset cs stage =>
    obtain ⟨state, ready, work, sdo⟩ := ok.of_held stage
    exact {
      initialising := fun _ => ⟨ready, work, by simp [stage], sdo, fun _ => stage⟩
      idle := by simp [state], shifting := by simp [state], working := by simp [state], workingBusy := by simp [state]
      rousing := ok.rousing, released := nofun, neverBusy := ok.neverBusy, replyFits := ok.replyFits
      bufferFits := ok.bufferFits }
  | release stage cs =>
    obtain ⟨state, ready, work, sdo⟩ := ok.of_held stage
    exact {
      initialising := fun _ => ⟨ready, work, nofun, sdo, by simp [cs]⟩
      idle := by simp [state], shifting := by simp [state], working := by simp [state], workingBusy := by simp [state]
      rousing := ok.rousing, released := ok.released, neverBusy := ok.neverBusy, replyFits := ok.replyFits
      bufferFits := ok.bufferFits }
  | releaseLow stage cs =>
    obtain ⟨state, ready, work, _⟩ := ok.of_held stage
    simp only [HostPort.select, state]
    exact ok.shows_busy ready nofun (fun _ => work) nofun
  | passes bs buffer cs state size =>
    obtain ⟨ready, _, work, stage⟩ := ok.shifting state
    exact {
      initialising := nofun, idle := fun _ => ⟨ready, rfl, work, stage⟩, shifting := nofun, working := nofun
      workingBusy := nofun, rousing := ok.rousing, released := fun _ => rfl, neverBusy := ok.neverBusy
      replyFits := ok.replyFits, bufferFits := size.elim id fun h => h ▸ ok.bufferFits }
  | refuses bs buffer status cs state size known =>
    obtain ⟨_, _, work, stage⟩ := ok.shifting state
    exact {
      initialising := nofun, idle := fun _ => ⟨rfl, rfl, rfl, stage⟩, shifting := nofun, working := nofun
      workingBusy := nofun, rousing := work ▸ ok.rousing, released := fun _ => rfl, neverBusy := known.1
      replyFits := ⟨Nat.zero_le 40, Nat.zero_le 40⟩, bufferFits := size }
  | hands bs buffer c cs state size =>
    obtain ⟨_, _, work, stage⟩ := ok.shifting state
    have mode := ok.not_rousing (by simp [work])
    exact {
      initialising := nofun, idle := nofun, shifting := nofun, working := fun _ => ⟨rfl, rfl, nofun, stage⟩
      workingBusy := nofun, rousing := ⟨fun h => absurd h mode, nofun⟩, released := fun _ => rfl
      neverBusy := ok.neverBusy, replyFits := ⟨ok.replyFits.1, Nat.zero_le 40⟩, bufferFits := size }
  | discards bs cs state =>
    obtain ⟨_, held, initialising, iff⟩ := ok.workingBusy state
    unfold HostPort.afterBusy
    split
    · next ready =>
      obtain ⟨work, stage⟩ := iff.1 ready
      exact {
        initialising := nofun, idle := fun _ => ⟨ready, rfl, work, stage⟩, shifting := nofun, working := nofun
        workingBusy := nofun, rousing := ok.rousing, released := fun _ => rfl, neverBusy := ok.neverBusy
        replyFits := ok.replyFits, bufferFits := Nat.zero_le 42 }
    · next ready =>
      have ready : s.host.ready = false := by simpa using ready
      split
      · next stage =>
        have work : s.host.work ≠ none := fun h => by simp [ready] at iff; exact iff h stage
        exact {
          initialising := nofun, idle := nofun, shifting := nofun, working := fun _ => ⟨ready, rfl, work, stage⟩
          workingBusy := nofun, rousing := ok.rousing, released := fun _ => rfl, neverBusy := ok.neverBusy
          replyFits := ok.replyFits, bufferFits := Nat.zero_le 42 }
      · next stage =>
        have begun : s.host.stage = .initialising := by cases h : s.host.stage <;> simp_all
        exact {
          initialising := fun _ => ⟨ready, initialising begun, stage, rfl, nofun⟩, idle := nofun, shifting := nofun
          working := nofun, workingBusy := nofun, rousing := ok.rousing, released := fun _ => rfl
          neverBusy := ok.neverBusy, replyFits := ok.replyFits, bufferFits := Nat.zero_le 42 }
  | rises bs cs state =>
    have sdo : s.host.state = .initialising ∧ s.host.sdo = none := by
      rcases state with state | state | state
      · exact ⟨state, (ok.initialising state).2.2.2.1⟩
      · simp [ok.idle state] at cs
      · simp [ok.working state] at cs
    obtain ⟨state, sdo⟩ := sdo
    obtain ⟨ready, work, stage, _, _⟩ := ok.initialising state
    exact {
      initialising := fun _ => ⟨ready, work, stage, sdo, nofun⟩
      idle := by simp [state], shifting := by simp [state], working := by simp [state], workingBusy := by simp [state]
      rousing := ok.rousing, released := fun _ => sdo, neverBusy := ok.neverBusy, replyFits := ok.replyFits
      bufferFits := ok.bufferFits }

/-! ## The mode after an event on the line -/

theorem EndsOnly.mode {s t : State} (h : EndsOnly s t) : t.line.mode = s.line.mode := by rw [h.line]

/-- A quiet phase is entered in LISTEN or leads to DORMANT (R150). -/
theorem State.enterQuiet_mode {s : State} (mode : s.line.mode ≠ .rousing) (p : Phase) :
    (s.enterQuiet p).line.mode ≠ .rousing :=
  State.enterQuiet_keeps (I := fun t => t.line.mode ≠ .rousing) mode fun _ _ => by simp

theorem State.enterQuiet_host (s : State) (p : Phase) : (s.enterQuiet p).host = s.host :=
  State.enterQuiet_keeps (I := fun t => t.host = s.host) rfl fun _ _ => by simp

theorem State.decodeAction_mode {s : State} (mode : s.line.mode ≠ .rousing) (h : Handle) (a : Action) (t : Tag) :
    (s.decodeAction h a t).line.mode ≠ .rousing := by
  have met : (s.meetSequence (s.line.isContinuation h a t)).line.mode = s.line.mode := by rw [State.meetSequence_line]
  unfold State.decodeAction
  dsimp only
  split
  · refine State.enterQuiet_mode ?_ _
    rw [State.postAt_line]
    exact met ▸ mode
  · refine State.enterQuiet_mode ?_ _
    rw [State.post_line, State.postAt_line]
    exact met ▸ mode
  · rw [State.enterSpace_line, State.postAt_line]
    exact met ▸ mode
  · rw [State.postAt_line]
    exact met ▸ mode

theorem State.postAt_host (s : State) (e : Option EntryNo) (c : Cause) : (s.postAt e c).host = s.host := by
  unfold State.postAt
  split <;> rfl

theorem State.enterSpace_host (s : State) (e : EntryNo) (a : Action) (t : Tag) : (s.enterSpace e a t).host = s.host := by
  have hs : s.sendRequest.host = s.host := by
    unfold State.sendRequest
    dsimp only
    repeat' split
    · rfl
    · exact State.serveRequest_host _
    · exact State.serveRequest_host _
  unfold State.enterSpace
  split
  · unfold State.decideRetire
    dsimp only
    split <;> rfl
  all_goals exact hs

theorem State.decodeAction_host (s : State) (h : Handle) (a : Action) (t : Tag) :
    (s.decodeAction h a t).host = s.host := by
  have met : (s.meetSequence (s.line.isContinuation h a t)).host = s.host := by
    unfold State.meetSequence
    split
    · rfl
    · exact s.closeSequence_host
  unfold State.decodeAction
  dsimp only
  split
  · rw [State.enterQuiet_host, State.postAt_host]; exact met
  · rw [State.enterQuiet_host, State.post_host, State.postAt_host]; exact met
  · rw [State.enterSpace_host, State.postAt_host]; exact met
  · rw [State.postAt_host]; exact met

theorem State.tick_host (s : State) : s.tick.host = s.host := by
  rw [State.tick_eq]
  unfold State.idleExpired
  repeat' split
  · exact State.closeSequence_host _
  · rfl
  · rfl

/-- A tick changes the mode from LISTEN to DORMANT or not at all (R150). -/
theorem State.tick_mode (s : State) :
    s.line.mode = .listen ∧ s.tick.line.mode = .dormant ∨ s.tick.line.mode = s.line.mode := by
  have counted : s.counted.line.mode = s.line.mode := by
    unfold State.counted
    rw [LineUnit.idleTicked_eq]
  rw [State.tick_eq]
  unfold State.idleExpired
  split
  · next due =>
    split
    · exact .inl ⟨counted ▸ ((LineUnit.idleDue_iff _).1 due).1, rfl⟩
    · exact .inr counted
  · exact .inr counted

/-! ## The effects -/

theorem State.takeReply_length (u : AttentionUnit) (e : EntryNo) : (u.takeReply e).length ≤ 40 := by
  simp [AttentionUnit.takeReply, handleBytes, causeBytes, halfBytes]

theorem HostOk.hostEffect {s t : State} (ok : HostOk s) (work : Work.taken s.host.work = true)
    (effect : HostEffect s t) : HostOk t := by
  have busy : s.host.work ≠ none := fun h => by simp [h, Work.taken] at work
  have mode : s.line.mode ≠ .rousing := ok.not_rousing fun h => by simp [h, Work.taken] at work
  have short : ∀ b : Byte, [b].length ≤ 40 := fun _ => by simp
  have none : ([] : List Byte).length ≤ 40 := by simp
  have done : ∀ {r : State} {data : List Byte}, data.length ≤ 40 → r.host = s.host.completed .done data →
      r.line.mode ≠ .rousing → HostOk r := fun size host mode => ok.completed (.inl busy) (status := .done) nofun size host mode
  cases effect with
  | replies status data known size => exact ok.completed (.inl busy) known size rfl mode
  | configures r holdTb idle lease _ _ => exact done none rfl mode
  | leaves m target _ =>
    refine done (short m.code) ?_ ?_
    · rw [State.completeMode, State.complete_host, State.leaveListen_host]
    · rw [State.completeMode, State.complete_line, State.leaveListen_line, LineUnit.quit_mode]
      rcases target with rfl | rfl <;> decide
  | waits w which =>
    refine ok.outstanding (.inl busy) ?_ rfl ⟨fun h => absurd h mode, ?_⟩
    · rcases which with rfl | rfl <;> exact none
    · rcases which with rfl | rfl <;> exact nofun
  | abandons _ =>
    refine done (short (LineMode.code .offline)) ?_ ?_
    · rw [State.completeMode, State.complete_host, State.abandonFrame, State.leaveListen_host, State.setCondition_host,
        (s.frameEnd_ends .abandoned).host]
    · rw [State.completeMode, State.complete_line, State.abandonFrame, State.leaveListen_line, LineUnit.quit_mode]
      decide
  | collides _ =>
    refine done (short (LineMode.code .offline)) ?_ ?_
    · rw [State.completeMode, State.complete_host, State.leaveListen_host, s.frameCollided_ends.host]
    · rw [State.completeMode, State.complete_line, State.leaveListen_line, LineUnit.quit_mode]
      decide
  | enters _ => exact done (short (LineMode.code .listen)) rfl nofun
  | quits m target _ =>
    refine done (short m.code) rfl ?_
    rcases target with rfl | rfl <;> exact nofun
  | rouses _ => exact ok.outstanding (.inl busy) (w := .rouse) none rfl ⟨fun _ => rfl, fun _ => rfl⟩
  | defines e handle role len permits limit mask _ _ _ => exact done (short _) rfl mode
  | amends e selector permits mask limit _ _ =>
    refine done none ?_ ?_
    · unfold State.amendEntry
      dsimp only
      split <;> rfl
    · rw [State.complete_line, State.amendEntry_line]; exact mode
  | stagesInPlace e cells o data _ => exact done none rfl mode
  | stages e cells p o data _ _ _ _ => exact done none rfl mode
  | commits e cells _ _ _ =>
    refine done (short (((s.entry e).version + 1).zeroExtend 8)) ?_ ?_
    · rw [State.complete_host]
      congr 1
      unfold State.commitEntry State.retireCurrent
      dsimp only [State.setEntry_host]
      repeat' split
      · rfl
      · rfl
      · rw [State.freeCurrent_eq]
    · rw [State.complete_line, State.commitEntry_line]; exact mode
  | discards e _ _ =>
    refine done none ?_ ?_
    · rw [State.complete_host, State.freeStaged_eq]
    · rw [State.complete_line, State.freeStaged_eq]; exact mode
  | marksRetiring e _ _ => exact done (short _) rfl mode
  | tearsDown e _ _ =>
    refine done (short (EntryState.code .vacant)) ?_ ?_
    · rw [State.complete_host, State.vacate_host, State.clear_host, (s.teardown_reports e).host]
    · rw [State.complete_line, State.vacate_line, State.clear_line, (s.teardown_reports e).line]; exact mode
  | vacates e _ => exact done (short _) rfl mode
  | holds e k _ _ _ => exact done (short _) rfl mode
  | frees k => exact done none rfl mode
  | freesPosting k e => exact done none rfl mode
  | takes e rest _ _ => exact done (State.takeReply_length _ _) rfl mode
  | takesEnding e rest _ _ =>
    exact ok.outstanding (w := .vacate e (s.attention.takeReply e)) (.inl busy) (State.takeReply_length s.attention e) rfl ⟨fun h => absurd h mode, nofun⟩
  | emptiesConditions =>
    exact done
      (show [s.line.mode.code, s.line.phase.code, s.attention.conditions].length ≤ 40 by simp) rfl mode
  | restarts => exact done none rfl nofun

/-- The Host Port once a power-on or pin reset has started (R169, R172). -/
theorem HostOk.of_startReset {t : State} {cs : Bool}
    (host : t.host = { state := .initialising, ready := false, csLow := cs, sdo := none, shifted := [], buffer := []
                       slot := ⟨.started, []⟩, work := none, stage := .held })
    (mode : t.line.mode = .offline) : HostOk t := by
  constructor <;> simp [host, mode, Work.waitingReply]

/-- The Host Port once initialisation has completed (R168, R172). -/
theorem HostOk.initialised {s t : State} (ok : HostOk s) (stage : s.host.stage = .initialising)
    (host : t.host = { s.host with
      stage := .complete, ready := true, work := none
      state := if s.host.state = .workingBusy then .workingBusy else .idle })
    (mode : t.line.mode = .offline) : HostOk t := by
  have released := ok.released
  have busy := ok.neverBusy
  have reply := ok.replyFits
  have buffer := ok.bufferFits
  have at_ : s.host.state = .workingBusy ∧ s.host.csLow = true ∨ s.host.state ≠ .workingBusy ∧ s.host.csLow = false := by
    cases state : s.host.state with
    | initialising =>
      refine .inr ⟨nofun, ?_⟩
      cases cs : s.host.csLow with
      | false => rfl
      | true =>
        have := (ok.initialising state).2.2.2.2 cs
        simp [stage] at this
    | idle => simp [ok.idle state] at stage
    | shifting => simp [ok.shifting state] at stage
    | working => simp [ok.working state] at stage
    | workingBusy => exact .inl ⟨rfl, (ok.workingBusy state).1⟩
  rcases at_ with ⟨state, cs⟩ | ⟨state, cs⟩ <;>
    constructor <;> simp_all [Work.waitingReply]

/-- No event that changes the Line Unit alone changes its mode. -/
theorem LineEffect.mode {l m : LineUnit} (effect : LineEffect l m) : m.mode = l.mode := by cases effect <;> rfl

theorem HostOk.partEffect {s t : State} (ok : HostOk s) {draw : Drawn} (effect : PartEffect s draw t) : HostOk t := by
  have listening : s.line.mode = .listen → s.line.mode ≠ .rousing := fun h => by simp [h]
  have dormant : s.line.mode = .dormant → s.line.mode ≠ .rousing := fun h => by simp [h]
  have quiet : ∀ {r : State} (p : Phase), EndsOnly s r → s.line.mode = .listen → HostOk (r.enterQuiet p) :=
    fun {r} p ends mode => ok.of_mode ((r.enterQuiet_host p).trans ends.host) (listening mode)
      (State.enterQuiet_mode (ends.mode ▸ listening mode) p)
  have lands : ∀ {r : State} (b : Byte) (p : Phase), EndsOnly (s.landByte b) r → s.line.mode = .listen →
      HostOk (r.enterQuiet p) := fun {r} b p ends mode =>
    ok.of_mode ((r.enterQuiet_host p).trans ends.host) (listening mode)
      (State.enterQuiet_mode (ends.mode ▸ listening mode) p)
  have breaks : ∀ {r : State}, r.host = s.host → r.line.mode = s.line.mode → s.line.mode = .listen →
      HostOk r.newFrame := fun {r} host same mode => ok.of_mode host (listening mode) (same ▸ listening mode)
  cases effect with
  | nothing => exact ok
  | port h effect => exact ok.portEffect effect
  | line l effect => exact ok.congr rfl (by rw [effect.mode])
  | answerCompletes mode _ => exact quiet _ (s.frameEnd_ends _) mode
  | collides mode _ => exact quiet _ s.frameCollided_ends mode
  | collidesInBreak mode _ => exact breaks s.frameCollided_ends.host s.frameCollided_ends.mode mode
  | spaceEnds mode phase answer =>
    exact ok.of_mode s.serveRequest_host (listening mode) (s.serveRequest_ends.mode ▸ listening mode)
  | received b mode _ => exact lands b _ (State.frameEnd_ends _ _) mode
  | lastByteWrong b mode _ =>
    exact lands b _ ((State.frameEnd_ends _ _).trans (State.postFrame_reports _ _).ends) mode
  | receptionFails c mode _ =>
    exact quiet _ ((State.frameEnd_ends _ _).trans (State.postFrame_reports _ _).ends) mode
  | cut mode _ =>
    have ends := ((s.setCondition .cut).frameEnd_ends .cut).trans (State.postFrame_reports _ .damaged).ends
    exact breaks ends.host ends.mode mode
  | sticksInFlight mode _ =>
    have ends := (s.setCondition .lineStuck).frameEnd_ends .faulty
    exact ok.of_mode ((State.enterQuiet_host _ _).trans ends.host) (listening mode)
      (State.enterQuiet_mode (ends.mode ▸ listening mode) _)
  | sticks mode _ =>
    exact ok.of_mode (State.enterQuiet_host _ _) (listening mode)
      (State.enterQuiet_mode (s := s.setCondition .lineStuck) (listening mode) _)
  | quiets mode _ =>
    exact ok.of_mode (State.enterQuiet_host _ _) (listening mode) (State.enterQuiet_mode (listening mode) _)
  | headerFails c mode _ =>
    have ends := (s.setCondition c).breakSequence_reports.ends
    exact ok.of_mode ((State.enterQuiet_host _ _).trans ends.host) (listening mode)
      (State.enterQuiet_mode (ends.mode ▸ listening mode) _)
  | decodes h a t mode _ =>
    exact ok.of_mode (s.decodeAction_host h a t) (listening mode) (State.decodeAction_mode (listening mode) h a t)
  | breaks mode _ => exact ok.of_mode rfl (listening mode) (listening mode)
  | breaksHeader mode _ =>
    have ends := (s.setCondition .headerFraming).breakSequence_reports.ends
    exact breaks ends.host ends.mode mode
  | wakes mode => exact ok.of_mode rfl (dormant mode) nofun
  | wakesStuck mode => exact ok.of_mode rfl (dormant mode) nofun
  | rouseEnds mode =>
    exact ok.completed (.inl (by simp [ok.rousing.1 mode])) (status := .done) nofun (by simp) rfl nofun
  | rouseSticks mode =>
    exact ok.completed (.inl (by simp [ok.rousing.1 mode])) (status := .done) nofun (by simp) rfl nofun
  | holdExpires q _ _ =>
    exact ok.congr s.breakSequence_host (by rw [State.breakSequence_line])
  | idles mode _ =>
    refine ok.of_mode (s.leaveListen_host _) (listening mode) ?_
    rw [State.leaveListen_line]
    exact nofun
  | ticks _ =>
    refine ok.congr s.tick_host ?_
    rcases s.tick_mode with ⟨mode, h⟩ | h
    · simp [mode, h]
    · rw [h]
  | freshnessExpires e _ => exact ok.congr rfl .rfl
  | leaseExpires k e => exact ok.congr rfl .rfl
  | vacates e reply work =>
    exact ok.completed (.inl (by simp [work])) (status := .done) nofun (by have := ok.replyFits.2; rwa [work] at this)
      rfl (ok.not_rousing (by simp [work]))
  | powers => exact .of_startReset rfl rfl
  | resets => exact .of_startReset rfl rfl
  | initialised stage => exact ok.initialised stage rfl rfl

/-- Settles O54: an effect leaves the Host Port alone, completes a command, leaves one outstanding, or is one of the
port's own events. -/
theorem stepKeepsTheHostPortConsistent : Obligations.StepKeepsTheHostPortConsistent := fun _ _ h ok =>
  step_keeps_of_effects (G := fun _ => True) (fun _ _ _ hs => ⟨trivial, hs.congr rfl .rfl⟩)
    (fun _ c idle _ hs => ⟨trivial, hs.outstanding (w := .handed c) (.inr idle) (Nat.zero_le 40) rfl
      ⟨fun h => absurd h (hs.not_rousing (by simp [hs.idle idle])), nofun⟩⟩)
    (fun _ _ idle known _ hs => hs.completed (data := []) (.inr idle) known (Nat.zero_le 40) rfl
      (hs.not_rousing (by simp [hs.idle idle])))
    (fun _ _ _ hs work effect => hs.hostEffect work effect) (fun _ _ _ hs effect => hs.partEffect effect) h trivial ok

end Sys2Proof.Machine
end

section
/-! PROOFS. What the Table Controller can do at the end of a frame, said once (R103, section 6.9). -/

namespace Sys2Proof.Machine

/-- The fields of an entry once data from the line have become its current copy (R48, R49, R51). -/
def Entry.renewed (x : Entry) (v : Version) (stale claimed : Bool) (cells : List CellNo) : Entry :=
  { x with state := .live, age := 0, version := v, staleSeen := stale, claimedSeen := claimed, current := some cells }

/-- A frame that has no sequence to give up: no FETCH, or a capture of a MIRROR with no sequence or of one segment. -/
def State.meetsNoSequence (s : State) (e : EntryNo) : Prop :=
  s.line.frame.action = some .fetch →
    (s.entry e).role = .mirror ∧ ((s.entry e).segments ≤ 1 ∨ s.line.seq = none)

/-- What the Table Controller does when the end of the frame in flight on an entry is reported to it. -/
inductive TableReport (s : State) (how : FrameEnd) (e : EntryNo) : State → Prop
  | vacates (state : (s.entry e).state = .retiring) : TableReport s how e ((s.teardown e).vacate e)
  | nothing (state : (s.entry e).state ≠ .retiring) (rests : s.meetsNoSequence e) : TableReport s how e s
  | posts (c : Cause) (state : (s.entry e).state ≠ .retiring) (rests : s.meetsNoSequence e) :
      TableReport s how e (s.post e c)
  | overwrites (v : Version) (stale claimed : Bool) (cells : List CellNo) (data : List Byte)
      (state : (s.entry e).state ≠ .retiring) (rests : s.meetsNoSequence e)
      (flags : (s.entry e).role = .source → stale = (s.entry e).staleSeen ∧ claimed = (s.entry e).claimedSeen)
      (current : (s.entry e).current = some cells) :
      TableReport s how e (({ s.setEntry e ((s.entry e).renewed v stale claimed cells) with
        pool := CellPool.writeRecord cells s.pool 0 data }).post e .updated)
  | makes (v : Version) (stale claimed : Bool) (cells : List CellNo) (p : CellPool) (data : List Byte)
      (state : (s.entry e).state ≠ .retiring) (rests : s.meetsNoSequence e)
      (flags : (s.entry e).role = .source → stale = (s.entry e).staleSeen ∧ claimed = (s.entry e).claimedSeen)
      (current : (s.entry e).current = none) (small : (s.entry e).permits.storeOk = true ∨ (s.entry e).segments ≤ 1)
      (takes : s.pool.allocate 1 = some (cells, p)) :
      TableReport s how e (({ s.setEntry e ((s.entry e).renewed v stale claimed cells) with
        pool := CellPool.writeRecord cells (p.zero cells) 0 data }).post e .updated)
  | opens (v : Version) (cells : List CellNo) (p : CellPool) (data : List Byte)
      (state : (s.entry e).state ≠ .retiring) (action : s.line.frame.action = some .fetch)
      (role : (s.entry e).role = .mirror) (several : 1 < (s.entry e).segments) (seq : s.line.seq = none)
      (takes : s.pool.allocate (s.entry e).segments = some (cells, p)) :
      TableReport s how e { s.setEntry e { s.entry e with staged := some cells } with
        pool := CellPool.writeRecord cells (p.zero cells) 0 data
        line := { s.line with seq := some ⟨.assemble, (s.entry e).handle, e, 1, some v, some s.line.hold⟩ } }
  | goesOn (q : SequenceContext) (data : List Byte) (state : (s.entry e).state ≠ .retiring)
      (action : s.line.frame.action = some .fetch) (role : (s.entry e).role = .mirror) (seq : s.line.seq = some q)
      (next : q.next + 1 < (s.entry e).segments) : TableReport s how e (s.continueAssembly e q data)
  | completes (q : SequenceContext) (data : List Byte) (b : Byte) (state : (s.entry e).state ≠ .retiring)
      (action : s.line.frame.action = some .fetch) (role : (s.entry e).role = .mirror) (seq : s.line.seq = some q) :
      TableReport s how e (s.completeAssembly e q data b)
  | breaks (state : (s.entry e).state ≠ .retiring) (action : s.line.frame.action = some .fetch)
      (role : (s.entry e).role = .mirror) : TableReport s how e s.breakSequence
  | serves (state : (s.entry e).state ≠ .retiring) (action : s.line.frame.action = some .fetch)
      (role : (s.entry e).role = .source) (completed : how = .completed)
      (next : (s.line.frame.segment.getD 0).toNat + 1 < (s.entry e).segments) :
      TableReport s how e (s.openServe e (s.line.frame.segment.getD 0).toNat)
  | served (state : (s.entry e).state ≠ .retiring) (action : s.line.frame.action = some .fetch)
      (role : (s.entry e).role = .source) : TableReport s how e (s.releasePin.setSeq none)
  | answerFails (state : (s.entry e).state ≠ .retiring) (action : s.line.frame.action = some .fetch)
      (role : (s.entry e).role = .source) : TableReport s how e s.releasePin.breakSequence
  | ends (state : (s.entry e).state ≠ .retiring) (action : s.line.frame.action = some .retire) :
      TableReport s how e (s.endEntry e)

theorem State.acceptStore_report {s : State} {e : EntryNo} (how : FrameEnd) (state : (s.entry e).state ≠ .retiring)
    (action : s.line.frame.action = some .store) : TableReport s how e (s.acceptStore e) := by
  have rests : s.meetsNoSequence e := fun h => by simp [action] at h
  unfold State.acceptStore
  dsimp only
  split
  · exact .posts _ state rests
  · next permitted =>
    have permit : (s.entry e).permits.storeOk = true := by
      by_contra h
      exact permitted (.inl (by simpa using h))
    unfold State.applyStore
    dsimp only
    split
    · next cells current =>
      have eq : ({ (s.entry e).refresh with version := (s.entry e).version + 1 } : Entry) =
          (s.entry e).renewed ((s.entry e).version + 1) (s.entry e).staleSeen (s.entry e).claimedSeen cells := by
        simp [Entry.refresh, Entry.renewed, ← current]
      rw [eq]
      exact .overwrites _ _ _ cells _ state rests (fun _ => ⟨rfl, rfl⟩) current
    · next current =>
      split
      · exact .posts _ state rests
      · next cells p takes => exact .makes _ _ _ cells p _ state rests (fun _ => ⟨rfl, rfl⟩) current (.inl permit) takes

theorem State.captureGood_report {s : State} {e : EntryNo} (how : FrameEnd) (state : (s.entry e).state ≠ .retiring)
    (action : s.line.frame.action = some .fetch) (role : (s.entry e).role = .mirror) :
    TableReport s how e (s.captureGood e) := by
  have flags : ∀ a b : Bool, (s.entry e).role = .source → a = (s.entry e).staleSeen ∧ b = (s.entry e).claimedSeen :=
    fun _ _ h => by simp [role] at h
  unfold State.captureGood
  dsimp only
  split
  · next one =>
    unfold State.applyCapture
    dsimp only
    split
    · next cells current => exact .overwrites _ _ _ cells _ state (fun _ => ⟨role, .inl one⟩) (flags _ _) current
    · next current =>
      split
      · exact .posts _ state fun _ => ⟨role, .inl one⟩
      · next cells p takes =>
        exact .makes _ _ _ cells p _ state (fun _ => ⟨role, .inl one⟩) (flags _ _) current (.inr one) takes
  · next several =>
    split
    · next seq =>
      unfold State.openAssembly
      dsimp only
      split
      · exact .posts _ state fun _ => ⟨role, .inr seq⟩
      · next cells p takes => exact .opens _ cells p _ state action role (by omega) seq takes
    · next q seq =>
      split
      · exact .breaks state action role
      · split
        · next next => exact .goesOn q _ state action role seq next
        · exact .completes q _ _ state action role seq

theorem State.fetchAnswered_report {s : State} {e : EntryNo} (how : FrameEnd) (state : (s.entry e).state ≠ .retiring)
    (action : s.line.frame.action = some .fetch) (role : (s.entry e).role = .source) :
    TableReport s how e (s.fetchAnswered how e) := by
  unfold State.fetchAnswered
  dsimp only
  split
  · next completed =>
    split
    · next next => exact .serves state action role completed next
    · exact .served state action role
  · exact .answerFails state action role

/-- The report to the Table Controller has one of the effects listed. -/
theorem State.reportToTable_report (s : State) (how : FrameEnd) (e : EntryNo) :
    TableReport s how e (s.reportToTable how e) := by
  unfold State.reportToTable
  split
  · next state => exact .vacates state
  · next state =>
    split
    · next action =>
      split
      · next role => exact s.fetchAnswered_report how state action role
      · next role =>
        split
        · exact s.captureGood_report how state action role
        · exact .breaks state action role
    · next action =>
      split
      · exact s.acceptStore_report how state action
      · exact .nothing state fun h => by simp [action] at h
    · next action =>
      split
      · exact .ends state action
      · exact .nothing state fun h => by simp [action] at h
    all_goals
      next action => exact .nothing state fun h => by simp [action] at h

/-- What the reports of the end of a frame on an entry come to: the Claim Table's, then the Table Controller's. -/
theorem State.reportEnd_report {s : State} {e : EntryNo} (entry : s.line.frame.entry = some e) (how : FrameEnd) :
    TableReport ((s.reportToClaims how e).setInFlight none) how e (s.reportEnd how) := by
  simp only [State.reportEnd, entry]
  exact State.reportToTable_report _ how e

/-- The last segment of an assembly, the steps in one update: written, the old current copy freed, the staged copy made
current, the sequence closed (R53). -/
theorem State.completeAssembly_eq (s : State) (e : EntryNo) (q : SequenceContext) (data : List Byte) (b : Byte) :
    s.completeAssembly e q data b = { s with
      table := s.table.setEntry e { (s.entry e).renewed (tagVersion b) (tagStale b) (tagClaimed b)
        ((s.entry e).staged.getD []) with staged := none }
      pool := (CellPool.writeRecord ((s.entry e).staged.getD []) s.pool (16 * q.next) data).release
        ((s.entry e).current.getD [])
      attention := s.attention.post e Cause.updated.set
      line := { s.line with seq := none } } := by
  have twice : ∀ x y : Entry, (s.table.setEntry e x).setEntry e y = s.table.setEntry e y := fun x y => by
    simp [TableController.setEntry]
  simp only [State.completeAssembly, State.freeCurrent_eq, State.setEntry, State.entry,
    TableController.entry_setEntry_self, twice]
  rfl

end Sys2Proof.Machine
end

section
/-! PROOFS. What each shared operation leaves of an entry's standing: its state and its posting state, which the
in-flight mark and the attention records follow (R11, R12, R155). -/

namespace Sys2Proof.Machine

/-! ## Teardown (R22) -/

theorem State.teardown_entry_self (s : State) (e : EntryNo) :
    (s.teardown e).entry e = { s.entry e with current := none, staged := none, held := none } := by
  rw [State.teardown_eq]
  exact State.entry_setEntry_self s e _

theorem State.teardown_entry_ne (s : State) {e d : EntryNo} (h : d ≠ e) : (s.teardown e).entry d = s.entry d := by
  rw [State.teardown_eq]
  exact State.entry_setEntry_ne s _ h

@[simp] theorem State.teardown_inFlight (s : State) (e : EntryNo) : (s.teardown e).table.inFlight = s.table.inFlight := by
  rw [State.teardown_eq]

@[simp] theorem State.teardown_attention (s : State) (e : EntryNo) : (s.teardown e).attention = s.attention := by
  rw [State.teardown_eq]

/-- A line RETIRE that takes effect, its steps one after the other (R26). -/
theorem State.endEntry_eq (s : State) (e : EntryNo) :
    s.endEntry e = (((s.teardown e).setEntry e { (s.teardown e).entry e with state := .ended, age := 0 }).setPosting e
      .ending).post e .retired := rfl

theorem State.endEntry_entry_self (s : State) (e : EntryNo) :
    (s.endEntry e).entry e =
      { s.entry e with current := none, staged := none, held := none, state := .ended, age := 0 } := by
  rw [State.endEntry_eq, State.post_entry, State.setPosting_entry, State.entry_setEntry_self, State.teardown_entry_self]

theorem State.endEntry_entry_ne (s : State) {e d : EntryNo} (h : d ≠ e) : (s.endEntry e).entry d = s.entry d := by
  rw [State.endEntry_eq, State.post_entry, State.setPosting_entry, State.entry_setEntry_ne _ _ h,
    State.teardown_entry_ne s h]

theorem State.endEntry_attention (s : State) (e : EntryNo) :
    (s.endEntry e).attention =
      (s.attention.setRecord e { s.attention.record e with posting := .ending }).post e Cause.retired.set := by
  rw [State.endEntry_eq, State.post_attention, State.setPosting_attention, State.setEntry_attention,
    State.teardown_attention]

theorem State.endEntry_inFlight (s : State) (e : EntryNo) : (s.endEntry e).table.inFlight = s.table.inFlight := by
  rw [State.endEntry_eq, State.post_table, State.setPosting_table, State.setEntry_table,
    TableController.setEntry_inFlight, State.teardown_inFlight]

/-! ## Attention records -/

@[simp] theorem AttentionUnit.post_posting (u : AttentionUnit) (e d : EntryNo) (c : CauseSet) :
    ((u.post e c).record d).posting = (u.record d).posting := by
  by_cases h : d = e
  · subst h; simp
  · simp [h]

@[simp] theorem State.brokenPosting_posting (s : State) (u : AttentionUnit) (d : EntryNo) :
    ((s.brokenPosting u).record d).posting = (u.record d).posting := by
  unfold State.brokenPosting
  split <;> simp

/-- The records after the postings of a tick: each takes those that name it, in their order (R156). -/
theorem AttentionUnit.postTick_record (u : AttentionUnit) (k : Nat) (ps : List (EntryNo × CauseSet)) (d : EntryNo) :
    (u.postTick k ps).record d =
      (ps.filter fun p => decide (p.1 = d)).foldl (fun r p => r.keep p.2) (u.record d) := by
  have h : ∀ w : AttentionUnit, (ps.foldl (fun w p => w.setRecord p.1 ((w.record p.1).keep p.2)) w).record d =
      (ps.filter fun p => decide (p.1 = d)).foldl (fun r p => r.keep p.2) (w.record d) := by
    induction ps with
    | nil => exact fun _ => rfl
    | cons p ps ih =>
      intro w
      rw [List.foldl_cons, ih, AttentionUnit.record_setRecord, List.filter_cons]
      by_cases hp : p.1 = d
      · simp [hp]
      · simp [hp, Ne.symm hp]
  exact h u

theorem AttentionRecord.keepAll_posting (r : AttentionRecord) (ps : List (EntryNo × CauseSet)) :
    (ps.foldl (fun r p => r.keep p.2) r).posting = r.posting := by
  induction ps generalizing r with
  | nil => rfl
  | cons p ps ih => rw [List.foldl_cons, ih, AttentionRecord.keep_posting]

/-! ## The same standing -/

/-- Two states are of one kind when they are equal or both of DRAFT, LIVE and STALE. -/
def EntryState.Kin (a b : EntryState) : Prop := b = a ∨ a.working = true ∧ b.working = true

theorem EntryState.Kin.trans {a b c : EntryState} (h : a.Kin b) (g : b.Kin c) : a.Kin c := by
  rcases h with rfl | ⟨ha, hb⟩
  · exact g
  · rcases g with rfl | ⟨_, hc⟩
    · exact .inr ⟨ha, hb⟩
    · exact .inr ⟨ha, hc⟩

theorem EntryState.Kin.indexed {a b : EntryState} (h : a.Kin b) : b.indexed = a.indexed := by
  rcases h with rfl | ⟨ha, hb⟩
  · rfl
  · cases a <;> cases b <;> simp_all [EntryState.indexed, EntryState.working]

theorem EntryState.Kin.eq_of_not_working {a b : EntryState} (h : a.Kin b) (w : a.working = false ∨ b.working = false) :
    b = a := by
  rcases h with rfl | ⟨ha, hb⟩
  · rfl
  · simp [ha, hb] at w

theorem EntryState.Kin.postingFor {a b : EntryState} (h : a.Kin b) (taken : Bool) :
    postingFor b taken = postingFor a taken := by
  rcases h with rfl | ⟨ha, hb⟩
  · rfl
  · cases a <;> cases b <;> simp_all [Machine.postingFor, EntryState.working]

/-- Every entry keeps its posting state and the kind of its state, and what a TAKE is to vacate is as it was. -/
structure SameStanding (s t : State) : Prop where
  state : ∀ e : EntryNo, (s.entry e).state.Kin (t.entry e).state
  posting : ∀ e : EntryNo, (t.attention.record e).posting = (s.attention.record e).posting
  work : Work.vacating t.host.work = Work.vacating s.host.work

theorem SameStanding.of_eq {s t : State} (state : ∀ e : EntryNo, (t.entry e).state = (s.entry e).state)
    (posting : ∀ e : EntryNo, (t.attention.record e).posting = (s.attention.record e).posting)
    (host : t.host = s.host) : SameStanding s t := ⟨fun e => .inl (state e), posting, by rw [host]⟩

theorem SameStanding.refl (s : State) : SameStanding s s := .of_eq (fun _ => rfl) (fun _ => rfl) rfl

theorem SameStanding.trans {s t u : State} (h : SameStanding s t) (g : SameStanding t u) : SameStanding s u :=
  ⟨fun e => (h.state e).trans (g.state e), fun e => (g.posting e).trans (h.posting e), g.work.trans h.work⟩

/-- A state in which nothing that the standing speaks of has been touched. -/
theorem SameStanding.kept {s t : State} (entries : t.table.entries = s.table.entries)
    (records : t.attention.records = s.attention.records) (host : t.host = s.host) : SameStanding s t :=
  .of_eq (fun e => by simp only [State.entry, TableController.entry, entries])
    (fun e => by simp only [AttentionUnit.record, records]) host

theorem SameStanding.post {s t : State} (h : SameStanding s t) (e : EntryNo) (c : Cause) : SameStanding s (t.post e c) :=
  h.trans (.of_eq (fun _ => rfl) (fun _ => AttentionUnit.post_posting _ _ _ _) rfl)

theorem State.releasePin_standing (s : State) : SameStanding s s.releasePin :=
  .of_eq (fun e => by rw [State.releasePin_entry]) (fun e => by rw [State.releasePin_attention]) s.releasePin_host

theorem State.closeSequence_standing (s : State) : SameStanding s s.closeSequence :=
  .of_eq (fun e => by rw [State.closeSequence_entry]) (fun e => by rw [State.closeSequence_attention])
    s.closeSequence_host

theorem State.breakSequence_standing (s : State) : SameStanding s s.breakSequence :=
  s.closeSequence_standing.trans (.of_eq (fun e => by rw [State.breakSequence_entry])
    (fun e => by rw [State.breakSequence_attention, State.closeSequence_attention, State.brokenPosting_posting])
    (by rw [State.breakSequence_host, State.closeSequence_host]))

theorem State.leaveListen_standing (s : State) (m : LineMode) : SameStanding s (s.leaveListen m) :=
  s.breakSequence_standing.trans (.kept rfl rfl rfl)

theorem State.enterQuiet_standing (s : State) (p : Phase) : SameStanding s (s.enterQuiet p) :=
  State.enterQuiet_keeps (.kept rfl rfl rfl) fun _ _ =>
    SameStanding.trans (t := { s with line := s.line.quieted p }) (.kept rfl rfl rfl) (State.leaveListen_standing _ _)

theorem State.postFrame_standing (s : State) (c : Cause) : SameStanding s (s.postFrame c) := by
  unfold State.postFrame
  split
  · exact .refl s
  · exact (SameStanding.refl s).post _ _

theorem State.postAt_standing (s : State) (e : Option EntryNo) (c : Cause) : SameStanding s (s.postAt e c) := by
  unfold State.postAt
  split
  · exact .refl s
  · exact (SameStanding.refl s).post _ _

theorem State.decideClaim_standing (s : State) (e : EntryNo) (t : Tag) : SameStanding s (s.decideClaim e t) := by
  unfold State.decideClaim
  dsimp only
  split
  · refine SameStanding.post ?_ _ _
    exact .kept rfl rfl rfl
  · exact .kept rfl rfl rfl

theorem State.placePin_standing (s : State) (e : EntryNo) (continuation : Bool) :
    SameStanding s (s.placePin e continuation) := by
  unfold State.placePin
  repeat' split
  all_goals exact .kept rfl rfl rfl

theorem State.answerRequest_standing (s : State) (e : EntryNo) (a : Action) (t : Tag) :
    SameStanding s (s.answerRequest e a t) := by
  unfold State.answerRequest
  split
  · exact (s.placePin_standing e _).trans (.kept rfl rfl rfl)
  · exact .kept rfl rfl rfl
  · exact s.decideClaim_standing e t
  · exact .kept rfl rfl rfl
  · exact .refl s
  · exact .refl s

theorem State.serveRequest_standing (s : State) : SameStanding s s.serveRequest := by
  unfold State.serveRequest
  split
  · split
    · exact SameStanding.trans (t := s.setAsking false) (.kept rfl rfl rfl) (State.answerRequest_standing _ _ _ _)
    · exact .kept rfl rfl rfl
  · exact .refl s

theorem State.sendRequest_standing (s : State) : SameStanding s s.sendRequest := by
  unfold State.sendRequest
  dsimp only
  split
  · split
    · exact .kept rfl rfl rfl
    · exact SameStanding.trans (t := { s.setAsking true with requestCount := s.requestCount + 1 }) (.kept rfl rfl rfl)
        (State.serveRequest_standing _)
  · exact SameStanding.trans (t := s.setAsking true) (.kept rfl rfl rfl) (State.serveRequest_standing _)

theorem State.decideRetire_standing (s : State) (e : EntryNo) (t : Tag) : SameStanding s (s.decideRetire e t) := by
  unfold State.decideRetire
  dsimp only
  split
  · refine SameStanding.post ?_ _ _
    exact .kept rfl rfl rfl
  · exact .kept rfl rfl rfl

theorem State.enterSpace_standing (s : State) (e : EntryNo) (a : Action) (t : Tag) :
    SameStanding s (s.enterSpace e a t) := by
  unfold State.enterSpace
  split
  · exact s.decideRetire_standing e t
  all_goals exact s.sendRequest_standing

theorem State.meetSequence_standing (s : State) (continuation : Bool) : SameStanding s (s.meetSequence continuation) := by
  unfold State.meetSequence
  split
  · exact .kept rfl rfl rfl
  · exact s.closeSequence_standing

theorem State.reportToClaims_standing (s : State) (how : FrameEnd) (e : EntryNo) :
    SameStanding s (s.reportToClaims how e) := by
  unfold State.reportToClaims State.claimAnswered State.claimFailed State.releaseAnswered
  have posted : ∀ (k : SlotNo) (x : Slot) (d : EntryNo) (c : Cause), SameStanding s ((s.setSlot k x).post d c) :=
    fun k x d c => SameStanding.trans (t := s.setSlot k x) (.kept rfl rfl rfl) ((SameStanding.refl _).post d c)
  repeat' split
  all_goals first
    | exact posted _ _ _ _
    | exact .kept rfl rfl rfl

/-! ## The mark -/

@[simp] theorem State.breakSequence_inFlight (s : State) : s.breakSequence.table.inFlight = s.table.inFlight := by
  rw [State.breakSequence_table, State.closeSequence_inFlight]

@[simp] theorem State.leaveListen_inFlight (s : State) (m : LineMode) :
    (s.leaveListen m).table.inFlight = s.table.inFlight := by
  rw [State.leaveListen_table, State.closeSequence_inFlight]

@[simp] theorem State.enterQuiet_inFlight (s : State) (p : Phase) :
    (s.enterQuiet p).table.inFlight = s.table.inFlight :=
  State.enterQuiet_keeps (I := fun t => t.table.inFlight = s.table.inFlight) rfl fun _ _ => by simp

@[simp] theorem State.postFrame_table (s : State) (c : Cause) : (s.postFrame c).table = s.table := by
  unfold State.postFrame
  split <;> rfl

@[simp] theorem State.postAt_table (s : State) (e : Option EntryNo) (c : Cause) : (s.postAt e c).table = s.table := by
  unfold State.postAt
  split <;> rfl

@[simp] theorem State.decideRetire_table (s : State) (e : EntryNo) (t : Tag) : (s.decideRetire e t).table = s.table := by
  unfold State.decideRetire
  dsimp only
  split <;> rfl

@[simp] theorem State.sendRequest_inFlight (s : State) : s.sendRequest.table.inFlight = s.table.inFlight := by
  unfold State.sendRequest
  dsimp only
  repeat' split
  all_goals simp

@[simp] theorem State.enterSpace_inFlight (s : State) (e : EntryNo) (a : Action) (t : Tag) :
    (s.enterSpace e a t).table.inFlight = s.table.inFlight := by
  unfold State.enterSpace
  split <;> simp

@[simp] theorem State.meetSequence_inFlight (s : State) (continuation : Bool) :
    (s.meetSequence continuation).table.inFlight = s.table.inFlight := by
  unfold State.meetSequence
  split <;> simp

/-! ## The decode of a header (R97, R105, R106) -/

/-- The header's fields and what the lookup found, stored in the frame context (R97, R102). -/
def State.framed (s : State) (h : Handle) (a : Action) (t : Tag) : State :=
  { s with line := { s.line with
    frame := FrameContext.atHeader h a t (s.table.lookup h) ((s.table.lookup h).map fun e => (s.entry e).found) } }

/-- The landing buffer emptied for the response to come (R102). -/
def State.awaitResponse (s : State) : State :=
  { s with line := { s.line with landing := [], startSeen := false, edge := false } }

/-- What a header makes of the open sequence, with its fields stored. -/
def State.met (s : State) (h : Handle) (a : Action) (t : Tag) : State :=
  (s.meetSequence (s.line.isContinuation h a t)).framed h a t

/-- The entry of the sequence that a header closes. -/
def State.brokenAt (s : State) (h : Handle) (a : Action) (t : Tag) : Option EntryNo :=
  s.line.brokenBy (s.line.isContinuation h a t)

/-- What the decode of a good header comes to (R105, R106). -/
inductive Decoded (s : State) (h : Handle) (a : Action) (t : Tag) : State → Prop
  | skips (path : choosePath ((s.met h a t).table.lookup h)
        (((s.met h a t).table.lookup h).map fun e => ((s.met h a t).entry e).found) a t
        (s.line.isContinuation h a t) = .skip none) :
      Decoded s h a t (((s.met h a t).postAt (s.brokenAt h a t) .segBroken).enterQuiet .skipping)
  | skipsPosting (e : EntryNo) (c : Cause) (entry : (s.met h a t).table.lookup h = some e)
      (path : choosePath (some e) (some ((s.met h a t).entry e).found) a t (s.line.isContinuation h a t) =
        .skip (some (e, c))) :
      Decoded s h a t ((((s.met h a t).postAt (s.brokenAt h a t) .segBroken).post e c).enterQuiet .skipping)
  | answers (e : EntryNo) (n : Nat) (entry : (s.met h a t).table.lookup h = some e)
      (path : choosePath (some e) (some ((s.met h a t).entry e).found) a t (s.line.isContinuation h a t) =
        .answer e n) :
      Decoded s h a t
        ((((s.met h a t).startFrame .space e n).postAt (s.brokenAt h a t) .segBroken).enterSpace e a t)
  | receives (e : EntryNo) (n : Nat) (entry : (s.met h a t).table.lookup h = some e)
      (path : choosePath (some e) (some ((s.met h a t).entry e).found) a t (s.line.isContinuation h a t) =
        .receive e n) :
      Decoded s h a t
        (((s.met h a t).startFrame .receiving e n).postAt (s.brokenAt h a t) .segBroken).awaitResponse

/-- The entry a path names is the one the lookup found. -/
theorem choosePath_entry {entry : Option EntryNo} {f : EntryNo → Found} {a : Action} {t : Tag} {continuation : Bool}
    {e : EntryNo} {n : Nat} {c : Cause}
    (h : choosePath entry (entry.map f) a t continuation = .skip (some (e, c)) ∨
      choosePath entry (entry.map f) a t continuation = .answer e n ∨
      choosePath entry (entry.map f) a t continuation = .receive e n) : entry = some e := by
  cases entry with
  | none => simp [choosePath] at h
  | some d =>
    simp only [choosePath, Option.map_some] at h
    repeat' split at h
    all_goals simp at h
    all_goals simp [h]

theorem State.decodeAction_decoded (s : State) (h : Handle) (a : Action) (t : Tag) :
    Decoded s h a t (s.decodeAction h a t) := by
  have eq : s.decodeAction h a t =
      match choosePath ((s.met h a t).table.lookup h)
        (((s.met h a t).table.lookup h).map fun e => ((s.met h a t).entry e).found) a t (s.line.isContinuation h a t) with
      | .skip none => ((s.met h a t).postAt (s.brokenAt h a t) .segBroken).enterQuiet .skipping
      | .skip (some (e, c)) =>
        (((s.met h a t).postAt (s.brokenAt h a t) .segBroken).post e c).enterQuiet .skipping
      | .answer e n =>
        (((s.met h a t).startFrame .space e n).postAt (s.brokenAt h a t) .segBroken).enterSpace e a t
      | .receive e n =>
        (((s.met h a t).startFrame .receiving e n).postAt (s.brokenAt h a t) .segBroken).awaitResponse := rfl
  rw [eq]
  split
  · next path => exact .skips path
  · next e c path =>
    have entry := choosePath_entry (n := 0) (.inl path)
    rw [entry] at path
    exact .skipsPosting e c entry path
  · next e n path =>
    have entry := choosePath_entry (c := .updated) (.inr (.inl path))
    rw [entry] at path
    exact .answers e n entry path
  · next e n path =>
    have entry := choosePath_entry (c := .updated) (.inr (.inr path))
    rw [entry] at path
    exact .receives e n entry path

/-- The path table answers or receives for an entry in DRAFT, LIVE or STALE alone. -/
theorem choosePath_working {x : Found} {a : Action} {t : Tag} {continuation : Bool} {e : EntryNo} {n : Nat}
    (h : choosePath (some e) (some x) a t continuation = .answer e n ∨
      choosePath (some e) (some x) a t continuation = .receive e n) : x.state.working = true := by
  simp only [choosePath] at h
  split at h
  · simp at h
  · cases hx : x.state <;> simp_all [EntryState.working]

theorem State.met_line (s : State) (h : Handle) (a : Action) (t : Tag) :
    (s.met h a t).line = { s.line with seq := (s.met h a t).line.seq, frame := (s.met h a t).line.frame } := by
  unfold State.met State.framed
  dsimp only
  rw [State.meetSequence_line]

theorem State.met_standing (s : State) (h : Handle) (a : Action) (t : Tag) : SameStanding s (s.met h a t) :=
  (s.meetSequence_standing _).trans (.kept rfl rfl rfl)

theorem State.met_inFlight (s : State) (h : Handle) (a : Action) (t : Tag) :
    (s.met h a t).table.inFlight = s.table.inFlight := s.meetSequence_inFlight _

end Sys2Proof.Machine
end

section
/-! PROOFS. The in-flight mark (R11, R12, R25, R159). With no frame in flight the mark is clear and no entry is RETIRING;
the end of a frame brings that about whichever way it ends. -/

namespace Sys2Proof.Machine

/-! ## Without a frame in flight -/

/-- What holds of the mark and the entries' states while no frame is in flight. -/
structure Grounded (s : State) : Prop where
  mark : s.table.inFlight = none
  retiring : ∀ e : EntryNo, (s.entry e).state ≠ .retiring
  vacating : ∀ e : EntryNo, Work.vacating s.host.work = some e →
    (s.entry e).state = .ended ∧ (s.attention.record e).posting ≠ .ending
  ending : ∀ e : EntryNo, (s.attention.record e).posting = .ending → (s.entry e).state = .ended

theorem EntryState.Kin.ended {a b : EntryState} (h : a.Kin b) : b = .ended ↔ a = .ended :=
  ⟨fun hb => by rw [← h.eq_of_not_working (.inr (by rw [hb]; rfl)), hb],
    fun ha => by rw [h.eq_of_not_working (.inl (by rw [ha]; rfl)), ha]⟩

theorem EntryState.Kin.retiring {a b : EntryState} (h : a.Kin b) : b = .retiring ↔ a = .retiring :=
  ⟨fun hb => by rw [← h.eq_of_not_working (.inr (by rw [hb]; rfl)), hb],
    fun ha => by rw [h.eq_of_not_working (.inl (by rw [ha]; rfl)), ha]⟩

theorem Grounded.congr {s t : State} (ok : Grounded s) (same : SameStanding s t)
    (mark : t.table.inFlight = s.table.inFlight) : Grounded t where
  mark := mark.trans ok.mark
  retiring e h := ok.retiring e ((same.state e).retiring.1 h)
  vacating e h := by
    rw [same.work] at h
    rw [same.posting, (same.state e).ended]
    exact ok.vacating e h
  ending e h := by
    rw [same.posting] at h
    exact (same.state e).ended.2 (ok.ending e h)

theorem Grounded.flight {s : State} (ok : Grounded s) (phase : s.line.phase.inFlight = false) : FlightOk s where
  listening h := by simp [phase] at h
  marked h := by simp [phase] at h
  unmarked _ := ok.mark
  standing e h := by simp [ok.mark] at h
  retiring e h := absurd h (ok.retiring e)
  vacating := ok.vacating
  ending := ok.ending

theorem FlightOk.grounded {s : State} (ok : FlightOk s) (phase : s.line.phase.inFlight = false) : Grounded s where
  mark := ok.unmarked phase
  retiring e h := by
    have := ok.retiring e h
    simp [ok.unmarked phase] at this
  vacating := ok.vacating
  ending := ok.ending

theorem Grounded.leaveListen {s : State} (ok : Grounded s) (m : LineMode) : Grounded (s.leaveListen m) :=
  ok.congr (s.leaveListen_standing m) (s.leaveListen_inFlight m)

theorem Grounded.enterQuiet {s : State} (ok : Grounded s) {p : Phase} (quiet : p.quiet = true) :
    FlightOk (s.enterQuiet p) := by
  have hp : p.inFlight = false := by cases p <;> simp_all [Phase.quiet, Phase.inFlight]
  refine (ok.congr (s.enterQuiet_standing p) (s.enterQuiet_inFlight p)).flight ?_
  refine State.enterQuiet_keeps (I := fun t => t.line.phase.inFlight = false) hp fun _ _ => ?_
  rw [State.leaveListen_line]
  rfl

theorem Grounded.newFrame {s : State} (ok : Grounded s) : FlightOk s.newFrame :=
  (ok.congr (t := s.newFrame) (.kept rfl rfl rfl) rfl).flight rfl

/-- A command that completes leaves nothing to vacate. -/
theorem Grounded.idleWork {s t : State} (ok : Grounded s) (table : t.table = s.table)
    (attention : t.attention = s.attention) (work : Work.vacating t.host.work = none) : Grounded t where
  mark := by rw [table]; exact ok.mark
  retiring e := by rw [State.entry, table]; exact ok.retiring e
  vacating e h := by simp [work] at h
  ending e h := by rw [attention] at h; rw [State.entry, table]; exact ok.ending e h

/-! ## While a frame stays as it is -/

theorem FlightOk.congr {s t : State} (ok : FlightOk s) (same : SameStanding s t)
    (mark : t.table.inFlight = s.table.inFlight) (phase : t.line.phase.inFlight = s.line.phase.inFlight)
    (mode : t.line.mode = s.line.mode) (frame : t.line.frame.entry = s.line.frame.entry) : FlightOk t where
  listening h := by rw [mode]; exact ok.listening (phase ▸ h)
  marked h := by rw [mark, frame]; exact ok.marked (phase ▸ h)
  unmarked h := by rw [mark]; exact ok.unmarked (phase ▸ h)
  standing e h := by
    rw [(same.state e).indexed]
    exact ok.standing e (mark ▸ h)
  retiring e h := by
    rw [mark]
    exact ok.retiring e ((same.state e).retiring.1 h)
  vacating e h := by
    rw [same.work] at h
    rw [same.posting, (same.state e).ended]
    exact ok.vacating e h
  ending e h := by
    rw [same.posting] at h
    exact (same.state e).ended.2 (ok.ending e h)

/-- A change of one entry's standing under the same mark and frame, with nothing left to vacate. -/
theorem FlightOk.changeOne {s t : State} (ok : FlightOk s) (e : EntryNo)
    (line : t.line = { s.line with seq := t.line.seq }) (mark : t.table.inFlight = s.table.inFlight)
    (other : ∀ d : EntryNo, d ≠ e → t.entry d = s.entry d ∧ t.attention.record d = s.attention.record d)
    (work : Work.vacating t.host.work = none)
    (standing : s.table.inFlight = some e → (t.entry e).state.indexed = true)
    (retiring : (t.entry e).state = .retiring → s.table.inFlight = some e)
    (ending : (t.attention.record e).posting = .ending → (t.entry e).state = .ended) : FlightOk t where
  listening h := by rw [line] at h ⊢; exact ok.listening h
  marked h := by rw [line] at h ⊢; rw [mark]; exact ok.marked h
  unmarked h := by rw [line] at h; rw [mark]; exact ok.unmarked h
  standing d h := by
    rw [mark] at h
    by_cases hd : d = e
    · subst hd; exact standing h
    · rw [(other d hd).1]; exact ok.standing d h
  retiring d h := by
    rw [mark]
    by_cases hd : d = e
    · subst hd; exact retiring h
    · rw [(other d hd).1] at h; exact ok.retiring d h
  vacating d h := by simp [work] at h
  ending d h := by
    by_cases hd : d = e
    · subst hd; exact ending h
    · rw [(other d hd).2] at h; rw [(other d hd).1]; exact ok.ending d h

/-- A command that completes or waits for the end of a character, with the tables as they were. -/
theorem FlightOk.idleWork {s t : State} (ok : FlightOk s) (line : t.line = s.line) (table : t.table = s.table)
    (attention : t.attention = s.attention) (work : Work.vacating t.host.work = none) : FlightOk t where
  listening := by rw [line]; exact ok.listening
  marked := by rw [line, table]; exact ok.marked
  unmarked := by rw [line, table]; exact ok.unmarked
  standing e := by rw [State.entry, table]; exact ok.standing e
  retiring e := by rw [State.entry, table]; exact ok.retiring e
  vacating e h := by simp [work] at h
  ending e h := by rw [attention] at h; rw [State.entry, table]; exact ok.ending e h

/-! ## The end of a frame (R25, R103) -/

/-- The mark is gone and the frame's entry, alone possibly RETIRING, stands in the Handle Index. -/
structure Landing (s : State) (e : EntryNo) : Prop where
  mark : s.table.inFlight = none
  standing : (s.entry e).state.indexed = true
  retiring : ∀ d : EntryNo, (s.entry d).state = .retiring → d = e
  vacating : ∀ d : EntryNo, Work.vacating s.host.work = some d →
    (s.entry d).state = .ended ∧ (s.attention.record d).posting ≠ .ending
  ending : ∀ d : EntryNo, (s.attention.record d).posting = .ending → (s.entry d).state = .ended

theorem Landing.grounded {s : State} {e : EntryNo} (ok : Landing s e) (state : (s.entry e).state ≠ .retiring) :
    Grounded s where
  mark := ok.mark
  retiring d h := state (ok.retiring d h ▸ h)
  vacating := ok.vacating
  ending := ok.ending

theorem Landing.working {s : State} {e : EntryNo} (ok : Landing s e) (state : (s.entry e).state ≠ .retiring) :
    (s.entry e).state.working = true := by
  have := ok.standing
  cases h : (s.entry e).state <;> simp_all [EntryState.indexed, EntryState.working]

/-- The frame's entry leaves RETIRING for VACANT, or another state for ENDED with posting ENDING; no other entry's
standing changes. -/
structure LeavesTable (s : State) (e : EntryNo) (t : State) : Prop where
  host : t.host = s.host
  other : ∀ d : EntryNo, d ≠ e →
    t.entry d = s.entry d ∧ (t.attention.record d).posting = (s.attention.record d).posting
  left : (s.entry e).state = .retiring ∧ (t.entry e).state = .vacant ∧
      (t.attention.record e).posting = (s.attention.record e).posting ∨
    (t.entry e).state = .ended ∧ (t.attention.record e).posting = .ending

theorem Landing.leaves {s t : State} {e : EntryNo} (ok : Landing s e) (mark : t.table.inFlight = s.table.inFlight)
    (leaves : LeavesTable s e t) : Grounded t where
  mark := mark.trans ok.mark
  retiring d h := by
    by_cases hd : d = e
    · subst hd
      rcases leaves.left with ⟨_, l, _⟩ | ⟨l, _⟩ <;> simp [l] at h
    · rw [(leaves.other d hd).1] at h
      exact hd (ok.retiring d h)
  vacating d h := by
    rw [leaves.host] at h
    by_cases hd : d = e
    · subst hd
      have := ok.standing
      simp [(ok.vacating d h).1, EntryState.indexed] at this
    · rw [(leaves.other d hd).1, (leaves.other d hd).2]
      exact ok.vacating d h
  ending d h := by
    by_cases hd : d = e
    · subst hd
      rcases leaves.left with ⟨_, _, p⟩ | ⟨l, _⟩
      · have := ok.standing
        simp [ok.ending d (p ▸ h), EntryState.indexed] at this
      · exact l
    · rw [(leaves.other d hd).2] at h
      rw [(leaves.other d hd).1]
      exact ok.ending d h

/-- A change of one entry that keeps the kind of its state. -/
theorem SameStanding.changeEntry {s t : State} {e : EntryNo} {x : Entry} (kin : (s.entry e).state.Kin x.state)
    (entries : t.table.entries = (s.setEntry e x).table.entries)
    (posting : ∀ d : EntryNo, (t.attention.record d).posting = (s.attention.record d).posting)
    (work : Work.vacating t.host.work = Work.vacating s.host.work) : SameStanding s t where
  state d := by
    have h : t.entry d = (s.setEntry e x).entry d := by simp only [State.entry, TableController.entry, entries]
    rw [h]
    by_cases hd : d = e
    · subst hd
      rw [State.entry_setEntry_self]
      exact kin
    · exact .inl (by rw [State.entry_setEntry_ne _ _ hd])
  posting := posting
  work := work

/-- The report of a frame's end leaves every entry's standing, or takes the frame's entry out of the table. -/
theorem Landing.standings {s t : State} {how : FrameEnd} {e : EntryNo} (ok : Landing s e)
    (report : TableReport s how e t) : t.table.inFlight = s.table.inFlight ∧
      ((s.entry e).state ≠ .retiring ∧ SameStanding s t ∨ LeavesTable s e t) := by
  cases report with
  | vacates state =>
    refine ⟨?_, .inr ⟨((s.teardown_reports e).vacate e).host, fun d hd => ⟨?_, ?_⟩, .inl ⟨state, ?_, ?_⟩⟩⟩
    · rw [State.vacate_table, TableController.setEntry_inFlight, State.teardown_inFlight]
    · rw [State.entry_vacate_ne _ hd, State.teardown_entry_ne s hd]
    · rw [State.vacate_attention, State.teardown_attention]
    · rw [State.entry_vacate_self]; rfl
    · rw [State.vacate_attention, State.teardown_attention]
  | nothing state _ => exact ⟨rfl, .inl ⟨state, .refl s⟩⟩
  | posts c state _ => exact ⟨rfl, .inl ⟨state, (SameStanding.refl s).post e c⟩⟩
  | overwrites v a b cells data state _ _ _ =>
    exact ⟨rfl, .inl ⟨state, .changeEntry (x := (s.entry e).renewed v a b cells)
      (.inr ⟨ok.working state, rfl⟩) rfl (fun _ => AttentionUnit.post_posting _ _ _ _) rfl⟩⟩
  | makes v a b cells p data state _ _ _ _ _ =>
    exact ⟨rfl, .inl ⟨state, .changeEntry (x := (s.entry e).renewed v a b cells)
      (.inr ⟨ok.working state, rfl⟩) rfl (fun _ => AttentionUnit.post_posting _ _ _ _) rfl⟩⟩
  | opens v cells p data state _ _ _ _ _ =>
    exact ⟨rfl, .inl ⟨state, .changeEntry (x := { s.entry e with staged := some cells }) (.inl rfl) rfl
      (fun _ => rfl) rfl⟩⟩
  | goesOn q data state _ _ _ _ => exact ⟨rfl, .inl ⟨state, .kept rfl rfl rfl⟩⟩
  | completes q data b state _ _ _ =>
    rw [State.completeAssembly_eq]
    exact ⟨rfl, .inl ⟨state, .changeEntry (x := { (s.entry e).renewed (tagVersion b) (tagStale b) (tagClaimed b)
      ((s.entry e).staged.getD []) with staged := none }) (.inr ⟨ok.working state, rfl⟩) rfl
      (fun _ => AttentionUnit.post_posting _ _ _ _) rfl⟩⟩
  | breaks state _ _ => exact ⟨s.breakSequence_inFlight, .inl ⟨state, s.breakSequence_standing⟩⟩
  | serves state _ _ _ _ => exact ⟨rfl, .inl ⟨state, .kept rfl rfl rfl⟩⟩
  | served state _ _ =>
    exact ⟨s.releasePin_inFlight, .inl ⟨state, s.releasePin_standing.trans (.kept rfl rfl rfl)⟩⟩
  | answerFails state _ _ =>
    exact ⟨by rw [State.breakSequence_inFlight, State.releasePin_inFlight],
      .inl ⟨state, s.releasePin_standing.trans s.releasePin.breakSequence_standing⟩⟩
  | ends state _ =>
    refine ⟨s.endEntry_inFlight e, .inr ⟨(s.endEntry_reports e).host, fun d hd => ⟨?_, ?_⟩, .inr ⟨?_, ?_⟩⟩⟩
    · rw [State.endEntry_entry_ne s hd]
    · rw [State.endEntry_attention, AttentionUnit.post_posting, AttentionUnit.record_setRecord_ne _ _ hd]
    · rw [State.endEntry_entry_self]
    · rw [State.endEntry_attention, AttentionUnit.post_posting, AttentionUnit.record_setRecord_self]

theorem Landing.report {s t : State} {how : FrameEnd} {e : EntryNo} (ok : Landing s e)
    (report : TableReport s how e t) : Grounded t := by
  rcases ok.standings report with ⟨mark, ⟨state, same⟩ | leaves⟩
  · exact (ok.grounded state).congr same mark
  · exact ok.leaves mark leaves

/-- With the mark dropped, the frame in flight leaves its entry to be settled. -/
theorem FlightOk.landing {s : State} (ok : FlightOk s) (phase : s.line.phase.inFlight = true) {e : EntryNo}
    (entry : s.line.frame.entry = some e) (how : FrameEnd) :
    Landing ((s.reportToClaims how e).setInFlight none) e := by
  have same := s.reportToClaims_standing how e
  have mark : s.table.inFlight = some e := (ok.marked phase).2.trans entry
  refine ⟨rfl, ?_, fun d h => ?_, fun d h => ?_, fun d h => ?_⟩
  · rw [State.setInFlight_entry, (same.state e).indexed]
    exact ok.standing e mark
  · have := ok.retiring d ((same.state d).retiring.1 h)
    rw [mark] at this
    exact (Option.some.inj this).symm
  · rw [State.setInFlight_host, same.work] at h
    rw [State.setInFlight_entry, State.setInFlight_attention, same.posting, (same.state d).ended]
    exact ok.vacating d h
  · rw [State.setInFlight_attention, same.posting] at h
    exact (same.state d).ended.2 (ok.ending d h)

theorem FlightOk.reportEnd {s : State} (ok : FlightOk s) (phase : s.line.phase.inFlight = true) (how : FrameEnd) :
    Grounded (s.reportEnd how) := by
  obtain ⟨e, entry⟩ := Option.isSome_iff_exists.1 (ok.marked phase).1
  exact (ok.landing phase entry how).report (State.reportEnd_report entry how)

/-- A request taken leaves the frame's entry and phase as they were (R66). -/
theorem State.answerRequest_frameEntry (s : State) (e : EntryNo) (a : Action) (t : Tag) :
    (s.answerRequest e a t).line.frame.entry = s.line.frame.entry := by
  unfold State.answerRequest State.placePin State.decideClaim
  dsimp only
  repeat' split
  all_goals rfl

theorem State.serveRequest_frameEntry (s : State) : s.serveRequest.line.frame.entry = s.line.frame.entry := by
  unfold State.serveRequest
  split
  · split
    · rw [State.answerRequest_frameEntry]; rfl
    · rfl
  · rfl

theorem FlightOk.serveRequest {s : State} (ok : FlightOk s) : FlightOk s.serveRequest :=
  ok.congr s.serveRequest_standing s.serveRequest_inFlight (by rw [State.serveRequest_line])
    (by rw [State.serveRequest_line]) s.serveRequest_frameEntry

theorem FlightOk.frameEnd {s : State} (ok : FlightOk s) (phase : s.line.phase.inFlight = true) (how : FrameEnd) :
    Grounded (s.frameEnd how) :=
  ok.serveRequest.reportEnd (by rw [State.serveRequest_line]; exact phase) how

theorem Grounded.postFrame {s : State} (ok : Grounded s) (c : Cause) : Grounded (s.postFrame c) :=
  ok.congr (s.postFrame_standing c) (by rw [State.postFrame_table])

theorem FlightOk.frameCollided {s : State} (ok : FlightOk s) (phase : s.line.phase.inFlight = true) :
    Grounded s.frameCollided := (ok.frameEnd phase .collided).postFrame .collided

/-! ## The decode of a header (R105) -/

theorem FlightOk.of_started {s t : State} {e : EntryNo} (ok : Grounded s) (same : SameStanding s t)
    (working : (s.entry e).state.working = true) (mode : t.line.mode = .listen) (phase : t.line.phase.inFlight = true)
    (entry : t.line.frame.entry = some e) (mark : t.table.inFlight = some e) : FlightOk t where
  listening _ := mode
  marked _ := ⟨by rw [entry]; rfl, by rw [mark, entry]⟩
  unmarked h := by simp [phase] at h
  standing d h := by
    obtain rfl : e = d := Option.some.inj (mark.symm.trans h)
    rw [(same.state e).indexed]
    cases hs : (s.entry e).state <;> simp_all [EntryState.indexed, EntryState.working]
  retiring d h := absurd ((same.state d).retiring.1 h) (ok.retiring d)
  vacating d h := by
    rw [same.work] at h
    rw [same.posting, (same.state d).ended]
    exact ok.vacating d h
  ending d h := by
    rw [same.posting] at h
    exact (same.state d).ended.2 (ok.ending d h)

/-- A header on the answer path leaves the frame's entry as it is (R105). -/
theorem State.enterSpace_frameEntry (s : State) (e : EntryNo) (a : Action) (t : Tag) :
    (s.enterSpace e a t).line.frame.entry = s.line.frame.entry := by
  have hs : s.sendRequest.line.frame.entry = s.line.frame.entry := by
    unfold State.sendRequest
    dsimp only
    repeat' split
    · rfl
    · rw [State.serveRequest_frameEntry]; rfl
    · rw [State.serveRequest_frameEntry]; rfl
  unfold State.enterSpace
  split
  · unfold State.decideRetire
    dsimp only
    split <;> rfl
  all_goals exact hs

/-- A frame started on the entry that the lookup found, with the sequence's SEG_BROKEN posted (R105). -/
theorem FlightOk.started {s : State} (ok : FlightOk s) (mode : s.line.mode = .listen) (phase : s.line.phase = .header)
    {h : Handle} {a : Action} {t : Tag} {e : EntryNo} (entry : (s.met h a t).table.lookup h = some e)
    (working : ((s.met h a t).entry e).state.working = true) {p : Phase} (inFlight : p.inFlight = true) (n : Nat) :
    FlightOk (((s.met h a t).startFrame p e n).postAt (s.brokenAt h a t) .segBroken) := by
  have grounded : Grounded (s.met h a t) :=
    (ok.grounded (by rw [phase]; rfl)).congr (s.met_standing h a t) (s.met_inFlight h a t)
  refine .of_started grounded (SameStanding.trans (t := (s.met h a t).startFrame p e n) (.kept rfl rfl rfl)
    (State.postAt_standing _ _ _)) working ?_ ?_ ?_ ?_
  · rw [State.postAt_line]
    show (s.met h a t).line.mode = .listen
    rw [State.met_line]
    exact mode
  · rw [State.postAt_line]; exact inFlight
  · rw [State.postAt_line]; exact entry
  · rw [State.postAt_table]; rfl

theorem FlightOk.enterSpace {s : State} (ok : FlightOk s) (e : EntryNo) (a : Action) (t : Tag) :
    FlightOk (s.enterSpace e a t) :=
  ok.congr (State.enterSpace_standing _ _ _ _) (State.enterSpace_inFlight _ _ _ _) (by rw [State.enterSpace_line])
    (by rw [State.enterSpace_line]) (State.enterSpace_frameEntry _ _ _ _)

theorem FlightOk.decodeAction {s : State} (ok : FlightOk s) (mode : s.line.mode = .listen)
    (phase : s.line.phase = .header) (h : Handle) (a : Action) (t : Tag) : FlightOk (s.decodeAction h a t) := by
  have grounded : Grounded (s.met h a t) :=
    (ok.grounded (by rw [phase]; rfl)).congr (s.met_standing h a t) (s.met_inFlight h a t)
  generalize out : s.decodeAction h a t = u
  have decoded := s.decodeAction_decoded h a t
  rw [out] at decoded
  cases decoded with
  | skips path => exact (grounded.congr (State.postAt_standing _ _ _) (by rw [State.postAt_table])).enterQuiet rfl
  | skipsPosting e c entry path =>
    exact (grounded.congr ((State.postAt_standing _ _ _).post _ _)
      (by rw [State.post_table, State.postAt_table])).enterQuiet rfl
  | answers e n entry path =>
    exact (ok.started mode phase entry (choosePath_working (.inl path)) rfl n).enterSpace e a t
  | receives e n entry path =>
    exact (ok.started mode phase entry (choosePath_working (.inr path)) rfl n).congr (.kept rfl rfl rfl) rfl rfl rfl rfl

/-! ## The effects -/

/-- What TAKE leaves of the record it returns (R158, R159). -/
theorem AttentionUnit.takeHead_record_self (u : AttentionUnit) (e : EntryNo) (rest : List EntryNo) :
    (u.takeHead e rest).record e = { u.record e with
      posting := if (u.record e).posting = .ending then .closed else (u.record e).posting, causes := 0#13 } :=
  AttentionUnit.record_setRecord_self u e _

theorem AttentionUnit.takeHead_record_ne (u : AttentionUnit) {e d : EntryNo} (rest : List EntryNo) (h : d ≠ e) :
    (u.takeHead e rest).record d = u.record d := AttentionUnit.record_setRecord_ne u _ h

theorem LineEffect.frame {l m : LineUnit} (effect : LineEffect l m) :
    m.phase.inFlight = l.phase.inFlight ∧ m.frame = l.frame := by
  cases effect with
  | runStarts _ phase => rw [phase]; exact ⟨rfl, rfl⟩
  | breakEnds _ phase => rw [phase]; exact ⟨rfl, rfl⟩
  | _ => exact ⟨rfl, rfl⟩

theorem Work.vacating_of_taken {w : Option Work} (h : Work.taken w = true) : Work.vacating w = none := by
  unfold Work.taken at h
  split at h
  · rfl
  · rfl
  · rfl
  all_goals cases h

/-- An edge of CS leaves what a TAKE is to vacate, or nothing to vacate. -/
theorem PortEffect.vacating {h g : HostPort} (effect : PortEffect h g) :
    Work.vacating g.work = Work.vacating h.work ∨ Work.vacating g.work = none := by
  have select : ∀ x : HostPort, x.select.work = x.work := fun x => by unfold HostPort.select; split <;> rfl
  cases effect with
  | fall => exact .inl (by rw [select])
  | releaseLow => exact .inl (by rw [select])
  | refuses => exact .inr rfl
  | hands => exact .inr rfl
  | _ => exact .inl rfl

theorem Grounded.resetBlocks {t : State} (table : t.table = TableController.reset)
    (attention : t.attention = AttentionUnit.reset) (work : t.host.work = none) : Grounded t where
  mark := by rw [table]; rfl
  retiring e := by
    rw [State.entry, table]
    simp [TableController.entry, TableController.reset, Entry.vacant]
  vacating e h := by simp [work, Work.vacating] at h
  ending e h := by
    rw [attention] at h
    simp [AttentionUnit.record, AttentionUnit.reset, AttentionRecord.closed] at h

theorem State.commitEntry_standing {s : State} {e : EntryNo} (cells : List CellNo)
    (working : (s.entry e).state.working = true) : SameStanding s (s.commitEntry e cells) := by
  have retired : SameStanding s (s.retireCurrent e) := by
    unfold State.retireCurrent
    split
    · exact .refl s
    · split
      · exact .changeEntry (x := { s.entry e with current := none, held := _ }) (.inl rfl) rfl (fun _ => rfl) rfl
      · rw [State.freeCurrent_eq]
        exact .changeEntry (x := { s.entry e with current := none }) (.inl rfl) rfl (fun _ => rfl) rfl
  unfold State.commitEntry
  refine retired.trans (.changeEntry (e := e) ?_ rfl (fun _ => rfl) rfl)
  refine .inr ⟨?_, rfl⟩
  rcases retired.state e with h | ⟨_, h⟩
  · rw [h]; exact working
  · exact h

theorem State.commitEntry_inFlight (s : State) (e : EntryNo) (cells : List CellNo) :
    (s.commitEntry e cells).table.inFlight = s.table.inFlight := by
  unfold State.commitEntry State.retireCurrent
  dsimp only
  repeat' split
  · rfl
  · rfl
  · rw [State.freeCurrent_eq]; rfl

theorem State.amendEntry_standing (s : State) (e : EntryNo) (selector permits : Byte) (mask limit : Half) :
    SameStanding s (s.amendEntry e selector permits mask limit) := by
  unfold State.amendEntry
  dsimp only
  split
  · refine .changeEntry (e := e) ?_ rfl (fun d => ?_) rfl
    · exact .inl rfl
    by_cases hd : d = e
    · subst hd
      rw [State.setMask_attention, AttentionUnit.record_setRecord_self]
      rfl
    · rw [State.setMask_attention, AttentionUnit.record_setRecord_ne _ _ hd]
      rfl
  · refine .changeEntry (e := e) ?_ rfl (fun _ => rfl) rfl
    exact .inl rfl

theorem FlightOk.hostEffect {s t : State} (ok : FlightOk s) (work : Work.taken s.host.work = true)
    (effect : HostEffect s t) : FlightOk t := by
  have none := Work.vacating_of_taken work
  have quiet : s.line.mode ≠ .listen → s.line.phase.inFlight = false := fun h => by
    by_contra hp
    exact h (ok.listening (by simpa using hp))
  have done : ∀ {r : State} (status : Status) (data : List Byte), FlightOk r → FlightOk (r.complete status data) :=
    fun status data h => h.idleWork rfl rfl rfl rfl
  have grounds : ∀ {r : State}, Grounded r → r.line.phase.inFlight = false → FlightOk r := fun h hp => h.flight hp
  have same : ∀ {r : State}, SameStanding s r → r.table.inFlight = s.table.inFlight → r.line = s.line → FlightOk r :=
    fun h mark line => ok.congr h mark (by rw [line]) (by rw [line]) (by rw [line])
  have left : ∀ {r : State} (m : LineMode), Grounded r → FlightOk (r.leaveListen m) := fun m h =>
    (h.leaveListen m).flight (by rw [State.leaveListen_line]; rfl)
  cases effect with
  | replies status data _ _ => exact done _ _ ok
  | configures r holdTb idle lease _ _ => exact done _ _ (ok.congr (.kept rfl rfl rfl) rfl rfl rfl rfl)
  | leaves m _ phase => exact done _ _ (left m (ok.grounded phase))
  | waits w which => exact ok.idleWork rfl rfl rfl (by rcases which with rfl | rfl <;> rfl)
  | abandons phase => exact done _ _ (left _ ((ok.frameEnd phase .abandoned).congr (.kept rfl rfl rfl) rfl))
  | collides phase => exact done _ _ (left _ (ok.frameCollided phase))
  | enters mode => exact done _ _ (grounds ((ok.grounded (quiet mode)).congr (.kept rfl rfl rfl) rfl) rfl)
  | quits m _ mode => exact done _ _ (grounds ((ok.grounded (quiet mode)).congr (.kept rfl rfl rfl) rfl) rfl)
  | rouses mode =>
    exact (grounds (r := { s with line := { s.line.quit .rousing with txd := .pulse } })
      ((ok.grounded (quiet (by simp [mode]))).congr (.kept rfl rfl rfl) rfl) rfl).idleWork rfl rfl rfl rfl
  | defines e handle role len permits limit mask _ _ vacant =>
    refine ok.changeOne e rfl rfl (fun d hd => ⟨State.entry_setEntry_ne s _ hd, ?_⟩) rfl (fun _ => ?_) (fun h => ?_)
      (fun h => ?_)
    · exact AttentionUnit.record_setRecord_ne _ _ hd
    · exact congrArg (fun x => x.state.indexed) (State.entry_setEntry_self s e _)
    · cases (congrArg Entry.state (State.entry_setEntry_self s e _)).symm.trans h
    · cases (congrArg AttentionRecord.posting (AttentionUnit.record_setRecord_self s.attention e _)).symm.trans h
  | amends e selector permits mask limit _ _ =>
    refine done _ _ (same (s.amendEntry_standing e _ _ _ _) ?_ (State.amendEntry_line s e _ _ _ _))
    unfold State.amendEntry
    dsimp only
    split <;> rfl
  | stagesInPlace e cells o data _ => exact done _ _ (same (.kept rfl rfl rfl) rfl rfl)
  | stages e cells p o data _ _ _ _ =>
    refine done _ _ (same (.changeEntry (e := e) ?_ rfl (fun _ => rfl) rfl) rfl rfl)
    exact .inl rfl
  | commits e cells working _ _ =>
    exact done _ _ (same (State.commitEntry_standing cells working) (State.commitEntry_inFlight s e cells)
      (State.commitEntry_line s e cells))
  | discards e _ _ =>
    rw [State.freeStaged_eq]
    refine done _ _ (same (.changeEntry (e := e) ?_ rfl (fun _ => rfl) rfl) rfl rfl)
    exact .inl rfl
  | marksRetiring e _ mark =>
    refine ok.changeOne e rfl rfl (fun d hd => ⟨State.entry_setEntry_ne s _ hd, ?_⟩) rfl (fun _ => ?_) (fun _ => mark)
      (fun h => ?_)
    · exact AttentionUnit.clear_record_ne _ hd
    · exact congrArg (fun x => x.state.indexed) (State.entry_setEntry_self s e _)
    · cases (congrArg AttentionRecord.posting (AttentionUnit.clear_record_self s.attention e)).symm.trans h
  | tearsDown e _ mark =>
    refine ok.changeOne e ?_ ?_ (fun d hd => ⟨?_, ?_⟩) rfl (fun h => absurd h mark) (fun h => ?_) (fun h => ?_)
    · rw [State.complete_line, State.vacate_line, State.clear_line]
      exact (s.teardown_reports e).line
    · rw [State.complete_table, State.vacate_table, TableController.setEntry_inFlight, State.clear_table,
        State.teardown_inFlight]
    · rw [State.complete_entry, State.entry_vacate_ne _ hd, State.clear_entry, State.teardown_entry_ne s hd]
    · rw [State.complete_attention, State.vacate_attention, State.clear_attention, State.teardown_attention,
        AttentionUnit.clear_record_ne _ hd]
    · rw [State.complete_entry, State.entry_vacate_self] at h
      cases h
    · rw [State.complete_attention, State.vacate_attention, State.clear_attention,
        AttentionUnit.clear_record_self] at h
      cases h
  | vacates e state =>
    refine ok.changeOne e rfl rfl (fun d hd => ⟨State.entry_vacate_ne _ hd, AttentionUnit.clear_record_ne _ hd⟩) rfl
      (fun h => ?_) (fun h => ?_) (fun h => ?_)
    · have := ok.standing e h
      simp [state, EntryState.indexed] at this
    · rw [State.complete_entry, State.entry_vacate_self] at h
      cases h
    · cases (congrArg AttentionRecord.posting (AttentionUnit.clear_record_self s.attention e)).symm.trans h
  | holds e k _ _ _ => exact done _ _ (same (.kept rfl rfl rfl) rfl rfl)
  | frees k => exact done _ _ (same (.kept rfl rfl rfl) rfl rfl)
  | freesPosting k e =>
    exact done _ _ (same (SameStanding.trans (t := s.setSlot k .free) (.kept rfl rfl rfl)
      ((SameStanding.refl _).post e .claimEnded)) rfl rfl)
  | takes e rest _ posting =>
    refine done _ _ (same (.of_eq (fun _ => rfl) (fun d => ?_) rfl) rfl rfl)
    by_cases hd : d = e
    · subst hd
      rw [AttentionUnit.takeHead_record_self, if_neg posting]
    · rw [AttentionUnit.takeHead_record_ne _ _ hd]
  | takesEnding e rest _ posting =>
    exact {
      listening := ok.listening
      marked := ok.marked
      unmarked := ok.unmarked
      standing := ok.standing
      retiring := ok.retiring
      vacating := fun d hd => by
        obtain rfl : e = d := Option.some.inj hd
        refine ⟨ok.ending e posting, fun h => ?_⟩
        rw [State.setWork_attention, AttentionUnit.takeHead_record_self, if_pos posting] at h
        cases h
      ending := fun d hd => by
        by_cases he : d = e
        · exact he ▸ ok.ending e posting
        · rw [State.setWork_attention, AttentionUnit.takeHead_record_ne _ _ he] at hd
          exact ok.ending d hd }
  | emptiesConditions => exact done _ _ (same (.kept rfl rfl rfl) rfl rfl)
  | restarts => exact grounds (r := s.finishRestart) (.resetBlocks rfl rfl rfl) rfl

theorem Entry.ticked_kin (x : Entry) : x.state.Kin x.ticked.state := by
  unfold Entry.ticked
  split
  · next h =>
    have live : x.state = .live := (of_decide_eq_true h).1
    exact .inr ⟨by rw [live]; rfl, rfl⟩
  · exact .inl rfl

theorem TableController.ticked_entry (t : TableController) (e : EntryNo) : t.ticked.entry e = (t.entry e).ticked := by
  simp [TableController.entry, TableController.ticked]

theorem State.counted_standing (s : State) : SameStanding s s.counted where
  state e := by
    have h : s.counted.entry e = (s.entry e).ticked := s.table.ticked_entry e
    rw [h]
    exact (s.entry e).ticked_kin
  posting _ := rfl
  work := rfl

theorem State.idleExpired_standing (s : State) : SameStanding s s.idleExpired := by
  unfold State.idleExpired
  split
  · exact s.closeSequence_standing.trans (.kept rfl rfl rfl)
  · exact .kept rfl rfl rfl

theorem State.tick_standing (s : State) : SameStanding s s.tick := by
  have posted : ∀ {r : State} (ps : List (EntryNo × CauseSet)), SameStanding s r → r.host = s.host → SameStanding s { r with
      attention := s.attention.postTick s.orderCount ps, orderCount := s.orderCount + 1 } := fun {r} ps same host =>
    ⟨same.state, fun e => by rw [AttentionUnit.postTick_record, AttentionRecord.keepAll_posting], by rw [host]⟩
  rw [State.tick_eq]
  split
  · refine posted _ (s.counted_standing.trans s.counted.idleExpired_standing) ?_
    unfold State.idleExpired
    split
    · exact s.counted.closeSequence_host
    · rfl
  · exact posted _ s.counted_standing rfl

/-- A tick leaves the mark, and either the mode, the phase and the frame, or LISTEN from a quiet phase (R150). -/
theorem State.tick_flight (s : State) :
    s.tick.table.inFlight = s.table.inFlight ∧
      (s.tick.line.mode = s.line.mode ∧ s.tick.line.phase = s.line.phase ∧ s.tick.line.frame = s.line.frame ∨
        s.line.phase.quiet = true ∧ s.tick.line.phase = .waiting) := by
  have counted : s.counted.line.mode = s.line.mode ∧ s.counted.line.phase = s.line.phase ∧
      s.counted.line.frame = s.line.frame := by
    simp only [State.counted, LineUnit.idleTicked_eq, and_self]
  rw [State.tick_eq]
  split
  · unfold State.idleExpired
    split
    · next quiet =>
      refine ⟨s.counted.closeSequence_inFlight, .inr ⟨?_, rfl⟩⟩
      rw [← counted.2.1]
      exact quiet
    · exact ⟨rfl, .inl counted⟩
  · exact ⟨rfl, .inl counted⟩

theorem Phase.not_inFlight_of_quiet {p : Phase} (h : p.quiet = true) : p.inFlight = false := by
  cases p <;> simp_all [Phase.quiet, Phase.inFlight]

theorem FlightOk.tick {s : State} (ok : FlightOk s) : FlightOk s.tick := by
  rcases s.tick_flight with ⟨mark, ⟨mode, phase, frame⟩ | ⟨quiet, phase⟩⟩
  · exact ok.congr s.tick_standing mark (by rw [phase]) mode (by rw [frame])
  · exact ((ok.grounded (Phase.not_inFlight_of_quiet quiet)).congr s.tick_standing mark).flight (by rw [phase]; rfl)

/-- What is received and the bit conditions do not touch the frame in flight. -/
theorem FlightOk.landByte {s : State} (ok : FlightOk s) (b : Byte) : FlightOk (s.landByte b) :=
  ok.congr (.kept rfl rfl rfl) rfl rfl rfl rfl

theorem FlightOk.setCondition {s : State} (ok : FlightOk s) (c : LineCondition) : FlightOk (s.setCondition c) :=
  ok.congr (.kept rfl rfl rfl) rfl rfl rfl rfl

theorem FlightOk.partEffect {s t : State} (ok : FlightOk s) {draw : Drawn} (effect : PartEffect s draw t) : FlightOk t := by
  have flight : s.line.phase = .space ∨ s.line.phase = .answering → s.line.phase.inFlight = true := by
    rintro (h | h) <;> rw [h] <;> rfl
  have receives : s.line.phase = .receiving → s.line.phase.inFlight = true := fun h => by rw [h]; rfl
  have header : s.line.phase = .header → s.line.phase.inFlight = false := fun h => by rw [h]; rfl
  have quiet : ∀ {m : LineMode}, s.line.mode = m → m ≠ .listen → s.line.phase.inFlight = false := fun hm h => by
    by_contra hp
    exact h (hm.symm.trans (ok.listening (by simpa using hp)))
  have grounds : ∀ {r : State}, Grounded r → r.line.phase.inFlight = false → FlightOk r := fun h hp => h.flight hp
  cases effect with
  | nothing => exact ok
  | port h effect =>
    rcases effect.vacating with work | work
    · exact ok.congr ⟨fun _ => .inl rfl, fun _ => rfl, work⟩ rfl rfl rfl rfl
    · exact ok.idleWork rfl rfl rfl work
  | line l effect =>
    obtain ⟨phase, frame⟩ := effect.frame
    exact ok.congr (.kept rfl rfl rfl) rfl phase effect.mode (by rw [frame])
  | answerCompletes _ phase => exact (ok.frameEnd (flight (.inr phase)) .completed).enterQuiet rfl
  | collides _ phase => exact (ok.frameCollided (flight phase)).enterQuiet rfl
  | collidesInBreak _ phase => exact (ok.frameCollided (flight phase)).newFrame
  | spaceEnds mode phase answer =>
    refine ok.serveRequest.congr (.kept rfl rfl rfl) rfl ?_ rfl rfl
    rw [State.serveRequest_line]
    dsimp only
    rw [phase]
    rfl
  | received b _ phase => exact ((ok.landByte b).frameEnd (receives phase) .received).enterQuiet rfl
  | lastByteWrong b _ phase =>
    exact (((ok.landByte b).frameEnd (receives phase) .faulty).postFrame .damaged).enterQuiet rfl
  | receptionFails c _ phase => exact ((ok.frameEnd (receives phase) .faulty).postFrame c).enterQuiet rfl
  | cut _ phase => exact (((ok.setCondition .cut).frameEnd (receives phase) .cut).postFrame .damaged).newFrame
  | sticksInFlight _ phase => exact ((ok.setCondition .lineStuck).frameEnd phase .faulty).enterQuiet rfl
  | sticks _ phase => exact ((ok.setCondition .lineStuck).grounded phase).enterQuiet rfl
  | quiets _ phase => exact (ok.grounded phase).enterQuiet rfl
  | headerFails c _ phase =>
    exact ((((ok.setCondition c).grounded (header phase)).congr (State.breakSequence_standing _)
      (State.breakSequence_inFlight _)).enterQuiet rfl)
  | decodes h a t mode phase => exact ok.decodeAction mode phase h a t
  | breaks _ phase => exact (ok.grounded phase).newFrame
  | breaksHeader _ phase =>
    exact (((ok.setCondition .headerFraming).grounded (header phase)).congr (State.breakSequence_standing _)
      (State.breakSequence_inFlight _)).newFrame
  | wakes mode => exact grounds ((ok.grounded (quiet mode (by decide))).congr (.kept rfl rfl rfl) rfl) rfl
  | wakesStuck mode => exact grounds ((ok.grounded (quiet mode (by decide))).congr (.kept rfl rfl rfl) rfl) rfl
  | rouseEnds mode => exact grounds ((ok.grounded (quiet mode (by decide))).idleWork rfl rfl rfl) rfl
  | rouseSticks mode =>
    exact grounds (((ok.setCondition .lineStuck).grounded (quiet mode (by decide))).idleWork rfl rfl rfl) rfl
  | holdExpires q _ _ =>
    refine ok.congr s.breakSequence_standing s.breakSequence_inFlight ?_ ?_ ?_ <;> rw [State.breakSequence_line]
  | idles _ phase =>
    exact grounds ((ok.grounded (Phase.not_inFlight_of_quiet phase)).leaveListen .dormant)
      (by rw [State.leaveListen_line]; rfl)
  | ticks _ => exact ok.tick
  | freshnessExpires e expires =>
    refine ok.congr (SameStanding.post (.changeEntry (e := e) ?_ rfl (fun _ => rfl) rfl) _ _) rfl rfl rfl rfl
    have live : (s.entry e).state = .live := (of_decide_eq_true expires).1
    exact .inr ⟨by rw [live]; rfl, rfl⟩
  | leaseExpires k e =>
    exact ok.congr (SameStanding.trans (t := s.setSlot k .free) (.kept rfl rfl rfl) ((SameStanding.refl _).post e _))
      rfl rfl rfl rfl
  | vacates e reply work =>
    obtain ⟨ended, posting⟩ := ok.vacating e (by rw [work]; rfl)
    refine ok.changeOne e rfl rfl (fun d hd => ⟨State.entry_vacate_ne _ hd, rfl⟩) rfl (fun h => ?_) (fun h => ?_)
      (fun h => absurd h posting)
    · have := ok.standing e h
      simp [ended, EntryState.indexed] at this
    · rw [State.complete_entry, State.entry_vacate_self] at h
      cases h
  | powers => exact grounds (.resetBlocks rfl rfl rfl) rfl
  | resets => exact grounds (.resetBlocks rfl rfl rfl) rfl
  | initialised _ => exact grounds (.resetBlocks rfl rfl rfl) rfl

/-- Settles O55: an effect keeps every entry's standing under the same frame, ends the frame in flight, starts one, or
changes one entry that no frame is on. -/
theorem stepKeepsTheFlightMark : Obligations.StepKeepsTheFlightMark := fun _ _ h ok =>
  step_keeps_of_effects (G := fun _ => True) (fun _ _ _ hs => ⟨trivial, hs.congr (.kept rfl rfl rfl) rfl rfl rfl rfl⟩)
    (fun _ _ _ _ hs => ⟨trivial, hs.idleWork rfl rfl rfl rfl⟩) (fun _ _ _ _ _ hs => hs.idleWork rfl rfl rfl rfl)
    (fun _ _ _ hs work effect => hs.hostEffect work effect) (fun _ _ _ hs effect => hs.partEffect effect) h trivial ok

end Sys2Proof.Machine
end

section
/-! PROOFS. The attention list, the masks, the posting states and ATTN (R154 to R160, R164). -/

namespace Sys2Proof.Machine

/-! ## The Attention Unit by itself -/

/-- What holds of the unit whatever the entries' states are: ATTN, the list, the masks and the CLOSED records. -/
structure AttentionUnit.Consistent (u : AttentionUnit) : Prop where
  attn : u.attn = (!u.list.isEmpty || u.conditions != 0#8)
  once : u.list.Nodup
  listed : ∀ e : EntryNo, e ∈ u.list ↔ (u.record e).causes ≠ 0#13
  masked : ∀ e : EntryNo, (u.record e).mask.getLsbD 12 = true
  closedEmpty : ∀ e : EntryNo, (u.record e).posting = .closed → (u.record e).causes = 0#13

theorem AttentionOk.consistent {s : State} (ok : AttentionOk s) : s.attention.Consistent :=
  ⟨ok.attn, ok.once, ok.listed, ok.masked, ok.closedEmpty⟩

/-- A posting adds causes and takes none away (R156). -/
theorem AttentionRecord.keep_causes_ne {r : AttentionRecord} (h : r.causes ≠ 0#13) (c : CauseSet) :
    (r.keep c).causes ≠ 0#13 := by
  rw [AttentionRecord.keep_eq]
  split
  · exact h
  · intro h'
    exact h (BitVec.or_eq_zero_iff.1 h').1

theorem AttentionRecord.keep_closed {r : AttentionRecord} (h : r.posting = .closed) (c : CauseSet) : r.keep c = r := by
  rw [AttentionRecord.keep_eq, if_pos h]

theorem becameNonempty_iff (before after : AttentionRecord) :
    becameNonempty before after = true ↔ before.causes = 0#13 ∧ after.causes ≠ 0#13 := by
  simp [becameNonempty]

theorem AttentionUnit.Consistent.post {u : AttentionUnit} (ok : u.Consistent) (e : EntryNo) (c : CauseSet) :
    (u.post e c).Consistent where
  attn := u.post_attn e c
  once := by
    rw [AttentionUnit.post_list]
    split
    · next new =>
      have fresh : e ∉ u.list := fun h => (ok.listed e).1 h ((becameNonempty_iff _ _).1 new).1
      refine List.nodup_append.2 ⟨ok.once, by simp, ?_⟩
      rintro a ha b hb rfl
      exact fresh (List.mem_singleton.1 hb ▸ ha)
    · exact ok.once
  listed d := by
    rw [AttentionUnit.post_list]
    by_cases hd : d = e
    · subst hd
      rw [AttentionUnit.post_record_self]
      by_cases old : (u.record d).causes = 0#13
      · by_cases new : ((u.record d).keep c).causes = 0#13 <;> simp [becameNonempty_iff, old, new, ok.listed]
      · simp [becameNonempty_iff, old, ok.listed, AttentionRecord.keep_causes_ne old c]
    · rw [AttentionUnit.post_record_ne _ _ hd]
      split
      · simp [hd, ok.listed]
      · exact ok.listed d
  masked d := by
    by_cases hd : d = e
    · subst hd; simpa using ok.masked d
    · rw [AttentionUnit.post_record_ne _ _ hd]; exact ok.masked d
  closedEmpty d h := by
    rw [AttentionUnit.post_posting] at h
    by_cases hd : d = e
    · subst hd
      rw [AttentionUnit.post_record_self, AttentionRecord.keep_closed h]
      exact ok.closedEmpty d h
    · rw [AttentionUnit.post_record_ne _ _ hd]; exact ok.closedEmpty d h

theorem AttentionUnit.Consistent.setConditions {u : AttentionUnit} (ok : u.Consistent) (x : BitVec 8) :
    ({ u with conditions := x } : AttentionUnit).drive.Consistent :=
  ⟨rfl, ok.once, ok.listed, ok.masked, ok.closedEmpty⟩

/-- A record written with the causes it had. -/
theorem AttentionUnit.Consistent.setRecord {u : AttentionUnit} (ok : u.Consistent) (e : EntryNo) {r : AttentionRecord}
    (causes : r.causes = (u.record e).causes) (mask : r.mask.getLsbD 12 = true)
    (closed : r.posting = .closed → r.causes = 0#13) : (u.setRecord e r).Consistent where
  attn := ok.attn
  once := ok.once
  listed d := by
    rw [AttentionUnit.record_setRecord]
    split
    · next hd => subst hd; rw [causes]; exact ok.listed d
    · exact ok.listed d
  masked d := by
    rw [AttentionUnit.record_setRecord]
    split
    · exact mask
    · exact ok.masked d
  closedEmpty d h := by
    rw [AttentionUnit.record_setRecord] at h ⊢
    split at h
    · next hd => rw [if_pos hd]; exact closed h
    · next hd => rw [if_neg hd]; exact ok.closedEmpty d h

/-- An entry taken off the list with its causes cleared. -/
theorem AttentionUnit.Consistent.cleared {u v : AttentionUnit} (ok : u.Consistent) {e : EntryNo}
    (attn : v.attn = (!v.list.isEmpty || v.conditions != 0#8)) (once : v.list.Nodup)
    (listed : ∀ d : EntryNo, d ∈ v.list ↔ d ∈ u.list ∧ d ≠ e) (causes : (v.record e).causes = 0#13)
    (mask : (v.record e).mask = (u.record e).mask) (other : ∀ d : EntryNo, d ≠ e → v.record d = u.record d) :
    v.Consistent where
  attn := attn
  once := once
  listed d := by
    rw [listed]
    by_cases hd : d = e
    · subst hd; simp [causes]
    · simp [hd, other d hd, ok.listed]
  masked d := by
    by_cases hd : d = e
    · subst hd; rw [mask]; exact ok.masked d
    · rw [other d hd]; exact ok.masked d
  closedEmpty d h := by
    by_cases hd : d = e
    · subst hd; exact causes
    · rw [other d hd] at h ⊢; exact ok.closedEmpty d h

theorem AttentionUnit.Consistent.clear {u : AttentionUnit} (ok : u.Consistent) (e : EntryNo) : (u.clear e).Consistent :=
  ok.cleared (e := e) (u.clear_attn e) (ok.once.filter _) (fun d => by simp [AttentionUnit.clear_list])
    (by rw [AttentionUnit.clear_record_self]) (by rw [AttentionUnit.clear_record_self])
    (fun d hd => AttentionUnit.clear_record_ne u hd)

theorem AttentionUnit.Consistent.takeHead {u : AttentionUnit} (ok : u.Consistent) {e : EntryNo} {rest : List EntryNo}
    (list : u.list = e :: rest) : (u.takeHead e rest).Consistent := by
  have once := ok.once
  rw [list, List.nodup_cons] at once
  refine ok.cleared (e := e) rfl once.2 (fun d => ?_) (by rw [AttentionUnit.takeHead_record_self])
    (by rw [AttentionUnit.takeHead_record_self]) fun d hd => AttentionUnit.takeHead_record_ne u rest hd
  rw [list, List.mem_cons]
  exact ⟨fun h => ⟨.inr h, fun hd => once.1 (hd ▸ h)⟩, fun ⟨h, hd⟩ => h.resolve_left hd⟩

/-! ## The postings of a tick (log 7) -/

theorem insertByRank_perm (k : Nat) (e : EntryNo) (l : List EntryNo) : (insertByRank k e l).Perm (e :: l) := by
  induction l with
  | nil => exact .refl _
  | cons x xs ih =>
    simp only [insertByRank]
    split
    · exact .refl _
    · exact (ih.cons x).trans (.swap e x xs)

/-- The free order of a tick arranges the entries that join and drops none. -/
theorem arrange_perm (k : Nat) (l : List EntryNo) : (arrange k l).Perm l := by
  induction l with
  | nil => exact .refl _
  | cons x xs ih => exact (insertByRank_perm k x _).trans (ih.cons x)

theorem AttentionRecord.keepAll_mask (r : AttentionRecord) (ps : List (EntryNo × CauseSet)) :
    (ps.foldl (fun r p => r.keep p.2) r).mask = r.mask := by
  induction ps generalizing r with
  | nil => rfl
  | cons p ps ih => rw [List.foldl_cons, ih, AttentionRecord.keep_mask]

theorem AttentionRecord.keepAll_causes_ne {r : AttentionRecord} (h : r.causes ≠ 0#13) (ps : List (EntryNo × CauseSet)) :
    (ps.foldl (fun r p => r.keep p.2) r).causes ≠ 0#13 := by
  induction ps generalizing r with
  | nil => exact h
  | cons p ps ih => exact ih (AttentionRecord.keep_causes_ne h p.2)

theorem AttentionRecord.keepAll_closed {r : AttentionRecord} (h : r.posting = .closed) (ps : List (EntryNo × CauseSet)) :
    ps.foldl (fun r p => r.keep p.2) r = r := by
  induction ps with
  | nil => rfl
  | cons p ps ih => rw [List.foldl_cons, AttentionRecord.keep_closed h, ih]

theorem AttentionUnit.postTick_posting (u : AttentionUnit) (k : Nat) (ps : List (EntryNo × CauseSet)) (e : EntryNo) :
    ((u.postTick k ps).record e).posting = (u.record e).posting := by
  rw [AttentionUnit.postTick_record, AttentionRecord.keepAll_posting]

theorem AttentionUnit.postAll_list (ps : List (EntryNo × CauseSet)) (u : AttentionUnit) :
    (ps.foldl (fun w p => w.setRecord p.1 ((w.record p.1).keep p.2)) u).conditions = u.conditions := by
  induction ps generalizing u with
  | nil => rfl
  | cons p ps ih => rw [List.foldl_cons, ih]; rfl

/-- The list after a tick: the entries whose sets became nonempty join its tail, in the free order (log 7). -/
theorem AttentionUnit.postTick_list (u : AttentionUnit) (k : Nat) (ps : List (EntryNo × CauseSet)) :
    (u.postTick k ps).list = u.list ++ arrange k ((List.finRange 128).filter fun e =>
      becameNonempty (u.record e) ((u.postTick k ps).record e)) := rfl

theorem AttentionUnit.postTick_mem (u : AttentionUnit) (k : Nat) (ps : List (EntryNo × CauseSet)) (e : EntryNo) :
    e ∈ (u.postTick k ps).list ↔
      e ∈ u.list ∨ (u.record e).causes = 0#13 ∧ ((u.postTick k ps).record e).causes ≠ 0#13 := by
  rw [AttentionUnit.postTick_list, List.mem_append, (arrange_perm k _).mem_iff, List.mem_filter, becameNonempty_iff]
  simp

theorem AttentionUnit.Consistent.postTick {u : AttentionUnit} (ok : u.Consistent) (k : Nat)
    (ps : List (EntryNo × CauseSet)) : (u.postTick k ps).Consistent where
  attn := by
    have conditions : (u.postTick k ps).conditions = u.conditions := AttentionUnit.postAll_list ps u
    rw [AttentionUnit.postTick_list, conditions]
    have empty := (arrange_perm k ((List.finRange 128).filter fun e =>
      becameNonempty (u.record e) ((u.postTick k ps).record e))).length_eq
    have attn : (u.postTick k ps).attn = (!(u.list ++ (List.finRange 128).filter fun e =>
      becameNonempty (u.record e) ((u.postTick k ps).record e)).isEmpty || u.conditions != 0#8) := rfl
    rw [attn]
    congr 2
    rw [Bool.eq_iff_iff, List.isEmpty_iff_length_eq_zero, List.isEmpty_iff_length_eq_zero, List.length_append,
      List.length_append, empty]
  once := by
    rw [AttentionUnit.postTick_list]
    refine List.nodup_append.2 ⟨ok.once, (arrange_perm k _).nodup_iff.2 ((List.nodup_finRange 128).filter _), ?_⟩
    rintro d hd e he rfl
    rw [(arrange_perm k _).mem_iff, List.mem_filter, becameNonempty_iff] at he
    exact (ok.listed d).1 hd he.2.1
  listed e := by
    rw [AttentionUnit.postTick_mem, ok.listed]
    by_cases h : (u.record e).causes = 0#13
    · simp [h]
    · simp only [h, ne_eq, not_false_eq_true, false_and, or_false, true_iff]
      rw [AttentionUnit.postTick_record]
      exact AttentionRecord.keepAll_causes_ne h _
  masked e := by rw [AttentionUnit.postTick_record, AttentionRecord.keepAll_mask]; exact ok.masked e
  closedEmpty e h := by
    rw [AttentionUnit.postTick_posting] at h
    rw [AttentionUnit.postTick_record, AttentionRecord.keepAll_closed h]
    exact ok.closedEmpty e h

/-! ## The postings of the shared operations -/

theorem State.brokenPosting_consistent {u : AttentionUnit} (ok : u.Consistent) (s : State) :
    (s.brokenPosting u).Consistent := by
  unfold State.brokenPosting
  split
  · exact ok
  · exact ok.post _ _

theorem AttentionUnit.Consistent.breakSequence {s : State} (ok : s.attention.Consistent) :
    s.breakSequence.attention.Consistent := by
  rw [State.breakSequence_attention]
  exact State.brokenPosting_consistent ok s

theorem AttentionUnit.Consistent.leaveListen {s : State} (ok : s.attention.Consistent) (m : LineMode) :
    (s.leaveListen m).attention.Consistent := by
  rw [State.leaveListen_attention]
  exact State.brokenPosting_consistent ok s

theorem AttentionUnit.Consistent.enterQuiet {s : State} (ok : s.attention.Consistent) (p : Phase) :
    (s.enterQuiet p).attention.Consistent :=
  State.enterQuiet_keeps (I := fun t => t.attention.Consistent) ok fun _ _ =>
    AttentionUnit.Consistent.leaveListen (s := { s with line := s.line.quieted p }) ok _

theorem AttentionUnit.Consistent.postFrame {s : State} (ok : s.attention.Consistent) (c : Cause) :
    (s.postFrame c).attention.Consistent := by
  unfold State.postFrame
  split
  · exact ok
  · exact ok.post _ _

theorem AttentionUnit.Consistent.postAt {s : State} (ok : s.attention.Consistent) (e : Option EntryNo) (c : Cause) :
    (s.postAt e c).attention.Consistent := by
  unfold State.postAt
  split
  · exact ok
  · exact ok.post _ _

theorem AttentionUnit.Consistent.decideClaim {s : State} (ok : s.attention.Consistent) (e : EntryNo) (t : Tag) :
    (s.decideClaim e t).attention.Consistent := by
  unfold State.decideClaim
  dsimp only
  split
  · exact ok.post _ _
  · exact ok

theorem AttentionUnit.Consistent.serveRequest {s : State} (ok : s.attention.Consistent) :
    s.serveRequest.attention.Consistent := by
  have placed : ∀ (r : State) (e : EntryNo) (c : Bool), (r.placePin e c).attention = r.attention := fun r e c => by
    unfold State.placePin
    repeat' split
    all_goals rfl
  unfold State.serveRequest
  split
  · split
    · unfold State.answerRequest
      split
      · rw [State.setReply_attention, placed]; exact ok
      · exact ok
      · exact AttentionUnit.Consistent.decideClaim (s := s.setAsking false) ok _ _
      all_goals exact ok
    · exact ok
  · exact ok

theorem AttentionUnit.Consistent.enterSpace {s : State} (ok : s.attention.Consistent) (e : EntryNo) (a : Action)
    (t : Tag) : (s.enterSpace e a t).attention.Consistent := by
  have sent : s.sendRequest.attention.Consistent := by
    unfold State.sendRequest
    dsimp only
    repeat' split
    · exact ok
    · exact AttentionUnit.Consistent.serveRequest
        (s := { s.setAsking true with requestCount := s.requestCount + 1 }) ok
    · exact AttentionUnit.Consistent.serveRequest (s := s.setAsking true) ok
  unfold State.enterSpace
  split
  · unfold State.decideRetire
    dsimp only
    split
    · exact ok.post _ _
    · exact ok
  all_goals exact sent

theorem AttentionUnit.Consistent.reportToClaims {s : State} (ok : s.attention.Consistent) (how : FrameEnd) (e : EntryNo) :
    (s.reportToClaims how e).attention.Consistent := by
  unfold State.reportToClaims State.claimAnswered State.claimFailed State.releaseAnswered
  repeat' split
  all_goals first
    | exact ok
    | exact ok.post _ _

theorem AttentionUnit.Consistent.report {s t : State} {how : FrameEnd} {e : EntryNo} (ok : s.attention.Consistent)
    (report : TableReport s how e t) : t.attention.Consistent := by
  cases report with
  | vacates => rw [State.vacate_attention, State.teardown_attention]; exact ok
  | nothing => exact ok
  | posts c => exact ok.post e c.set
  | overwrites => exact ok.post e _
  | makes => exact ok.post e _
  | opens => exact ok
  | goesOn => exact ok
  | completes => rw [State.completeAssembly_eq]; exact ok.post e _
  | breaks => exact ok.breakSequence
  | serves => exact ok
  | served => rw [State.setSeq_attention, State.releasePin_attention]; exact ok
  | answerFails =>
    exact AttentionUnit.Consistent.breakSequence (s := s.releasePin) (by rw [State.releasePin_attention]; exact ok)
  | ends =>
    rw [State.endEntry_attention]
    exact (ok.setRecord e (r := { s.attention.record e with posting := .ending }) rfl (ok.masked e) nofun).post e _

/-! ## The posting states -/

/-- Every record's posting state is the one its entry's state calls for (R155). -/
def PostingFollows (s : State) : Prop :=
  ∀ e : EntryNo, (s.attention.record e).posting =
    postingFor (s.entry e).state (decide (Work.vacating s.host.work = some e))

theorem PostingFollows.congr {s t : State} (ok : PostingFollows s) (same : SameStanding s t) : PostingFollows t :=
  fun e => by rw [same.posting, same.work, (same.state e).postingFor]; exact ok e

/-- A change of one entry's standing, with nothing to vacate before or after. -/
theorem PostingFollows.changeOne {s t : State} (ok : PostingFollows s) (e : EntryNo)
    (other : ∀ d : EntryNo, d ≠ e → (t.entry d).state = (s.entry d).state ∧
      (t.attention.record d).posting = (s.attention.record d).posting ∧
      (Work.vacating t.host.work = some d ↔ Work.vacating s.host.work = some d))
    (self : (t.attention.record e).posting =
      postingFor (t.entry e).state (decide (Work.vacating t.host.work = some e))) : PostingFollows t := fun d => by
  by_cases hd : d = e
  · subst hd; exact self
  · obtain ⟨state, posting, work⟩ := other d hd
    rw [posting, state, ok d, decide_eq_decide.2 work]

theorem PostingFollows.report {s t : State} {how : FrameEnd} {e : EntryNo} (ok : PostingFollows s)
    (landing : Landing s e) (report : TableReport s how e t) : PostingFollows t := by
  rcases landing.standings report with ⟨_, ⟨_, same⟩ | leaves⟩
  · exact ok.congr same
  · have work : Work.vacating t.host.work ≠ some e := fun h => by
      have := landing.standing
      rw [leaves.host] at h
      simp [(landing.vacating e h).1, EntryState.indexed] at this
    refine ok.changeOne e (fun d hd => ?_) ?_
    · obtain ⟨entry, posting⟩ := leaves.other d hd
      exact ⟨by rw [entry], posting, by rw [leaves.host]⟩
    · rcases leaves.left with ⟨retiring, vacant, posting⟩ | ⟨ended, posting⟩
      · rw [posting, vacant, ok e, retiring]
        rfl
      · rw [posting, ended, decide_eq_false work]
        rfl

theorem AttentionOk.of_follows {s : State} (unit : s.attention.Consistent) (follows : PostingFollows s) :
    AttentionOk s := ⟨unit.attn, unit.once, unit.listed, unit.masked, unit.closedEmpty, follows⟩

theorem AttentionOk.congr {s t : State} (ok : AttentionOk s) (same : SameStanding s t)
    (unit : t.attention.Consistent) : AttentionOk t :=
  .of_follows unit (PostingFollows.congr ok.follows same)

/-! ## The end of a frame and the decode -/

theorem AttentionOk.frameEnd {s : State} (ok : AttentionOk s) (flight : FlightOk s)
    (phase : s.line.phase.inFlight = true) (how : FrameEnd) : AttentionOk (s.frameEnd how) := by
  have served : AttentionOk s.serveRequest := ok.congr s.serveRequest_standing ok.consistent.serveRequest
  have phase : s.serveRequest.line.phase.inFlight = true := by rw [State.serveRequest_line]; exact phase
  obtain ⟨e, entry⟩ := Option.isSome_iff_exists.1 (flight.serveRequest.marked phase).1
  have report := State.reportEnd_report entry how
  have claims := State.reportToClaims_standing s.serveRequest how e
  refine .of_follows ?_ ?_
  · exact AttentionUnit.Consistent.report (s := (s.serveRequest.reportToClaims how e).setInFlight none)
      (served.consistent.reportToClaims how e) report
  · refine PostingFollows.report ?_ (flight.serveRequest.landing phase entry how) report
    exact PostingFollows.congr served.follows (claims.trans (.kept rfl rfl rfl))

theorem AttentionOk.postFrame {s : State} (ok : AttentionOk s) (c : Cause) : AttentionOk (s.postFrame c) :=
  ok.congr (s.postFrame_standing c) (ok.consistent.postFrame c)

theorem AttentionOk.setCondition {s : State} (ok : AttentionOk s) (c : LineCondition) : AttentionOk (s.setCondition c) :=
  ok.congr (.kept rfl rfl rfl) (ok.consistent.setConditions _)

theorem AttentionOk.breakSequence {s : State} (ok : AttentionOk s) : AttentionOk s.breakSequence :=
  ok.congr s.breakSequence_standing ok.consistent.breakSequence

theorem AttentionOk.leaveListen {s : State} (ok : AttentionOk s) (m : LineMode) : AttentionOk (s.leaveListen m) :=
  ok.congr (s.leaveListen_standing m) (ok.consistent.leaveListen m)

theorem AttentionOk.enterQuiet {s : State} (ok : AttentionOk s) (p : Phase) : AttentionOk (s.enterQuiet p) :=
  ok.congr (s.enterQuiet_standing p) (ok.consistent.enterQuiet p)

/-- Nothing that the invariant speaks of has been touched. -/
theorem AttentionOk.kept {s t : State} (ok : AttentionOk s) (entries : t.table.entries = s.table.entries)
    (attention : t.attention = s.attention) (work : Work.vacating t.host.work = Work.vacating s.host.work) :
    AttentionOk t := by
  refine ok.congr ⟨fun e => .inl ?_, fun e => by rw [attention], work⟩ (by rw [attention]; exact ok.consistent)
  simp only [State.entry, TableController.entry, entries]

theorem AttentionOk.decodeAction {s : State} (ok : AttentionOk s) (h : Handle) (a : Action) (t : Tag) :
    AttentionOk (s.decodeAction h a t) := by
  have met : AttentionOk (s.met h a t) := by
    refine ok.congr (s.met_standing h a t) ?_
    unfold State.met State.framed State.meetSequence
    dsimp only
    split
    · exact ok.consistent
    · rw [State.closeSequence_attention]; exact ok.consistent
  have posted : ∀ {r : State}, AttentionOk r → AttentionOk (r.postAt (s.brokenAt h a t) .segBroken) := fun hr =>
    hr.congr (State.postAt_standing _ _ _) (hr.consistent.postAt _ _)
  have started : ∀ (p : Phase) (e : EntryNo) (n : Nat), AttentionOk ((s.met h a t).startFrame p e n) := fun p e n =>
    met.kept rfl rfl rfl
  generalize out : s.decodeAction h a t = u
  have decoded := s.decodeAction_decoded h a t
  rw [out] at decoded
  cases decoded with
  | skips path => exact (posted met).enterQuiet _
  | skipsPosting e c entry path =>
    exact AttentionOk.enterQuiet ((posted met).congr ((SameStanding.refl _).post e c)
      ((posted met).consistent.post e c.set)) _
  | answers e n entry path =>
    exact (posted (started _ e n)).congr (State.enterSpace_standing _ _ _ _)
      ((posted (started _ e n)).consistent.enterSpace _ _ _)
  | receives e n entry path => exact (posted (started _ e n)).kept rfl rfl rfl

/-! ## The effects -/

theorem State.commitEntry_frame (s : State) (e : EntryNo) (cells : List CellNo) :
    s.commitEntry e cells = { s with table := (s.commitEntry e cells).table, pool := (s.commitEntry e cells).pool } := by
  unfold State.commitEntry State.retireCurrent
  dsimp only
  repeat' split
  · rfl
  · rfl
  · rw [State.freeCurrent_eq]; rfl

theorem State.commitEntry_attention (s : State) (e : EntryNo) (cells : List CellNo) :
    (s.commitEntry e cells).attention = s.attention := by rw [State.commitEntry_frame]

theorem State.commitEntry_host (s : State) (e : EntryNo) (cells : List CellNo) :
    (s.commitEntry e cells).host = s.host := by rw [State.commitEntry_frame]

theorem AttentionOk.reset {t : State} (table : t.table = TableController.reset)
    (attention : t.attention = AttentionUnit.reset) : AttentionOk t := by
  have record : ∀ e : EntryNo, t.attention.record e = AttentionRecord.closed := fun e => by
    rw [attention]
    simp [AttentionUnit.record, AttentionUnit.reset]
  have entry : ∀ e : EntryNo, t.entry e = Entry.vacant := fun e => by
    rw [State.entry, table]
    simp [TableController.entry, TableController.reset]
  exact {
    attn := by rw [attention]; rfl
    once := by rw [attention]; exact .nil
    listed := fun e => by rw [record, attention]; simp [AttentionUnit.reset, AttentionRecord.closed]
    masked := fun e => by rw [record]; rfl
    closedEmpty := fun e _ => by rw [record]; rfl
    follows := fun e => by rw [record, entry]; rfl }

theorem AttentionOk.hostEffect {s t : State} (ok : AttentionOk s) (flight : FlightOk s)
    (work : Work.taken s.host.work = true) (effect : HostEffect s t) : AttentionOk t := by
  have none := Work.vacating_of_taken work
  have unit := ok.consistent
  have done : ∀ {r : State} (status : Status) (data : List Byte), AttentionOk r →
      Work.vacating r.host.work = Option.none → AttentionOk (r.complete status data) :=
    fun status data h hw => h.kept rfl rfl (by rw [hw]; rfl)
  have one : ∀ {r : State} (e : EntryNo), r.attention.Consistent → Work.vacating r.host.work = Option.none →
      (∀ d : EntryNo, d ≠ e → r.entry d = s.entry d ∧ r.attention.record d = s.attention.record d) →
      (r.attention.record e).posting = postingFor (r.entry e).state false → AttentionOk r :=
    fun {r} e unit hw other self => .of_follows unit (PostingFollows.changeOne ok.follows e (fun d hd => by
      obtain ⟨entry, record⟩ := other d hd
      exact ⟨by rw [entry], by rw [record], by rw [hw, none]⟩) (by rw [hw]; exact self))
  cases effect with
  | replies status data _ _ => exact done _ _ ok none
  | configures r holdTb idle lease _ _ => exact done _ _ (ok.kept rfl rfl rfl) none
  | leaves m _ _ => exact done _ _ (ok.leaveListen m) (by rw [State.leaveListen_host]; exact none)
  | waits w which => exact ok.kept rfl rfl (by rw [none]; rcases which with rfl | rfl <;> rfl)
  | abandons phase =>
    refine done _ _ (((ok.frameEnd flight phase .abandoned).setCondition .abandoned).leaveListen .offline) ?_
    rw [State.abandonFrame, State.leaveListen_host, State.setCondition_host, (s.frameEnd_ends .abandoned).host]
    exact none
  | collides phase =>
    refine done _ _ (((ok.frameEnd flight phase .collided).postFrame .collided).leaveListen .offline) ?_
    rw [State.leaveListen_host, s.frameCollided_ends.host]
    exact none
  | enters mode => exact done _ _ (ok.kept rfl rfl rfl) none
  | quits m _ mode => exact done _ _ (ok.kept rfl rfl rfl) none
  | rouses mode => exact ok.kept rfl rfl (by rw [none]; rfl)
  | defines e handle role len permits limit mask _ _ vacant =>
    have empty : (s.attention.record e).causes = 0#13 := by
      refine ok.closedEmpty e ?_
      have state : (s.entry e).state = .vacant := ((TableController.firstVacant_eq_some _ _).1 vacant).1
      rw [ok.follows e, state]
      rfl
    have stored : (storedMask mask).getLsbD 12 = true := by
      simp [storedMask, CauseSet.retiredOnly]
    refine one e (unit.setRecord e (r := ⟨.opened, handle.truncate 9, storedMask mask, 0#13⟩) empty.symm stored nofun)
      rfl (fun d hd => ⟨State.entry_setEntry_ne s _ hd, AttentionUnit.record_setRecord_ne _ _ hd⟩) ?_
    have entry := State.entry_setEntry_self s e (definedEntry handle role len permits limit)
    refine (congrArg AttentionRecord.posting (AttentionUnit.record_setRecord_self s.attention e _)).trans ?_
    exact congrArg (postingFor · false) (congrArg Entry.state entry).symm
  | amends e selector permits mask limit _ _ =>
    refine done _ _ (ok.congr (s.amendEntry_standing e _ _ _ _) ?_) ?_
    · unfold State.amendEntry
      dsimp only
      split
      · have stored : (storedMask mask).getLsbD 12 = true := by simp [storedMask, CauseSet.retiredOnly]
        exact unit.setRecord e (r := { s.attention.record e with mask := storedMask mask }) rfl stored
          (ok.closedEmpty e)
      · exact unit
    · unfold State.amendEntry
      dsimp only
      split <;> exact none
  | stagesInPlace e cells o data _ => exact done _ _ (ok.kept rfl rfl rfl) none
  | stages e cells p o data _ _ _ _ =>
    refine done _ _ (ok.congr (.changeEntry (e := e) ?_ rfl (fun _ => rfl) rfl) unit) none
    exact .inl rfl
  | commits e cells working _ _ =>
    refine done _ _ (ok.congr (State.commitEntry_standing cells working) ?_) ?_
    · rw [State.commitEntry_attention]; exact unit
    · rw [State.commitEntry_host]; exact none
  | discards e _ _ =>
    rw [State.freeStaged_eq]
    refine done _ _ (ok.congr (.changeEntry (e := e) ?_ rfl (fun _ => rfl) rfl) unit) none
    exact .inl rfl
  | marksRetiring e _ mark =>
    refine one e (unit.clear e) rfl (fun d hd => ⟨State.entry_setEntry_ne s _ hd, AttentionUnit.clear_record_ne _ hd⟩) ?_
    have entry := State.entry_setEntry_self s e { s.entry e with state := .retiring }
    refine (congrArg AttentionRecord.posting (AttentionUnit.clear_record_self s.attention e)).trans ?_
    exact congrArg (postingFor · false) (congrArg Entry.state entry).symm
  | tearsDown e _ mark =>
    refine one e ?_ rfl (fun d hd => ⟨?_, ?_⟩) ?_
    · rw [State.complete_attention, State.vacate_attention, State.clear_attention, State.teardown_attention]
      exact unit.clear e
    · rw [State.complete_entry, State.entry_vacate_ne _ hd, State.clear_entry, State.teardown_entry_ne s hd]
    · rw [State.complete_attention, State.vacate_attention, State.clear_attention, State.teardown_attention,
        AttentionUnit.clear_record_ne _ hd]
    · rw [State.complete_attention, State.vacate_attention, State.clear_attention, AttentionUnit.clear_record_self,
        State.complete_entry, State.entry_vacate_self]
      rfl
  | vacates e state =>
    refine one e (unit.clear e) rfl (fun d hd => ⟨State.entry_vacate_ne _ hd, AttentionUnit.clear_record_ne _ hd⟩) ?_
    rw [State.complete_entry, State.entry_vacate_self]
    exact congrArg AttentionRecord.posting (AttentionUnit.clear_record_self s.attention e)
  | holds e k _ _ _ => exact done _ _ (ok.kept rfl rfl rfl) none
  | frees k => exact done _ _ (ok.kept rfl rfl rfl) none
  | freesPosting k e =>
    exact done _ _ (ok.congr (SameStanding.trans (t := s.setSlot k .free) (.kept rfl rfl rfl)
      ((SameStanding.refl _).post e .claimEnded)) (unit.post e _)) none
  | takes e rest list posting =>
    refine done _ _ (ok.congr (.of_eq (fun _ => rfl) (fun d => ?_) rfl) (unit.takeHead list)) none
    by_cases hd : d = e
    · subst hd
      rw [AttentionUnit.takeHead_record_self, if_neg posting]
    · rw [AttentionUnit.takeHead_record_ne _ _ hd]
  | takesEnding e rest list posting =>
    refine .of_follows (unit.takeHead list) (PostingFollows.changeOne ok.follows e (fun d hd => ⟨rfl, ?_, ?_⟩) ?_)
    · exact congrArg AttentionRecord.posting (AttentionUnit.takeHead_record_ne _ _ hd)
    · rw [none]
      exact ⟨fun h => absurd (Option.some.inj h).symm hd, nofun⟩
    · have ended : (s.entry e).state = .ended := flight.ending e posting
      rw [State.setWork_attention, AttentionUnit.takeHead_record_self, if_pos posting]
      exact ((congrArg (postingFor · _) ended).trans (by simp [Work.vacating, HostPort.outstanding, postingFor])).symm
  | emptiesConditions => exact done _ _ (ok.congr (.kept rfl rfl rfl) (unit.setConditions _)) none
  | restarts => exact .reset rfl rfl

/-- An edge of CS leaves what a TAKE is to vacate as it was: a command begins or ends with none outstanding. -/
theorem HostOk.vacating_eq {s : State} (ok : HostOk s) {h : HostPort} (effect : PortEffect s.host h) :
    Work.vacating h.work = Work.vacating s.host.work := by
  have select : ∀ x : HostPort, x.select.work = x.work := fun x => by unfold HostPort.select; split <;> rfl
  cases effect with
  | fall => rw [select]
  | releaseLow => rw [select]
  | refuses _ _ _ _ state => rw [(ok.shifting state).2.2.1]; rfl
  | hands _ _ _ _ state => rw [(ok.shifting state).2.2.1]; rfl
  | _ => rfl

theorem AttentionOk.partEffect {s t : State} (ok : AttentionOk s) (flight : FlightOk s) (host : HostOk s)
    {draw : Drawn} (effect : PartEffect s draw t) : AttentionOk t := by
  have unit := ok.consistent
  have landed : ∀ b : Byte, AttentionOk (s.landByte b) := fun b => ok.kept rfl rfl rfl
  have inFlight : s.line.phase = .space ∨ s.line.phase = .answering → s.line.phase.inFlight = true := by
    rintro (h | h) <;> rw [h] <;> rfl
  have receives : s.line.phase = .receiving → s.line.phase.inFlight = true := fun h => by rw [h]; rfl
  have broken : ∀ {r : State}, AttentionOk r → AttentionOk r.newFrame := fun h => h.kept rfl rfl rfl
  have rouse : s.line.mode = .rousing → Work.vacating s.host.work = none := fun mode => by
    rw [host.rousing.1 mode]; rfl
  cases effect with
  | nothing => exact ok
  | port h effect => exact ok.kept rfl rfl (host.vacating_eq effect)
  | line l effect => exact ok.kept rfl rfl rfl
  | answerCompletes _ phase => exact (ok.frameEnd flight (inFlight (.inr phase)) .completed).enterQuiet _
  | collides _ phase => exact ((ok.frameEnd flight (inFlight phase) .collided).postFrame .collided).enterQuiet _
  | collidesInBreak _ phase => exact broken ((ok.frameEnd flight (inFlight phase) .collided).postFrame .collided)
  | spaceEnds _ phase answer =>
    exact (ok.congr s.serveRequest_standing unit.serveRequest).kept rfl rfl rfl
  | received b _ phase => exact ((landed b).frameEnd (flight.landByte b) (receives phase) .received).enterQuiet _
  | lastByteWrong b _ phase =>
    exact (((landed b).frameEnd (flight.landByte b) (receives phase) .faulty).postFrame .damaged).enterQuiet _
  | receptionFails c _ phase => exact ((ok.frameEnd flight (receives phase) .faulty).postFrame c).enterQuiet _
  | cut _ phase =>
    exact broken (((ok.setCondition .cut).frameEnd (flight.setCondition .cut) (receives phase) .cut).postFrame .damaged)
  | sticksInFlight _ phase =>
    exact ((ok.setCondition .lineStuck).frameEnd (flight.setCondition .lineStuck) phase .faulty).enterQuiet _
  | sticks _ phase => exact (ok.setCondition .lineStuck).enterQuiet _
  | quiets _ phase => exact ok.enterQuiet _
  | headerFails c _ phase => exact (ok.setCondition c).breakSequence.enterQuiet _
  | decodes h a t _ phase => exact ok.decodeAction h a t
  | breaks _ phase => exact broken ok
  | breaksHeader _ phase => exact broken (ok.setCondition .headerFraming).breakSequence
  | wakes _ => exact ok.kept rfl rfl rfl
  | wakesStuck _ => exact (ok.setCondition .lineStuck).kept rfl rfl rfl
  | rouseEnds mode => exact ok.kept rfl rfl (by rw [rouse mode]; rfl)
  | rouseSticks mode => exact (ok.setCondition .lineStuck).kept rfl rfl ((rouse mode).symm ▸ rfl)
  | holdExpires q _ _ => exact ok.breakSequence
  | idles _ phase => exact ok.leaveListen .dormant
  | ticks _ =>
    refine ok.congr s.tick_standing ?_
    rw [State.tick_eq]
    exact unit.postTick _ _
  | freshnessExpires e expires =>
    refine ok.congr (SameStanding.post (.changeEntry (e := e) ?_ rfl (fun _ => rfl) rfl) _ _) (unit.post e _)
    have live : (s.entry e).state = .live := (of_decide_eq_true expires).1
    exact .inr ⟨by rw [live]; rfl, rfl⟩
  | leaseExpires k e =>
    exact ok.congr (SameStanding.trans (t := s.setSlot k .free) (.kept rfl rfl rfl) ((SameStanding.refl _).post e _))
      (unit.post e _)
  | vacates e reply work =>
    have vacating : Work.vacating s.host.work = some e := by rw [work]; rfl
    refine .of_follows unit (PostingFollows.changeOne ok.follows e (fun d hd => ⟨?_, rfl, ?_⟩) ?_)
    · rw [State.complete_entry, State.entry_vacate_ne _ hd]
    · rw [vacating]
      exact ⟨nofun, fun h => absurd (Option.some.inj h).symm hd⟩
    · rw [State.complete_entry, State.entry_vacate_self]
      refine (ok.follows e).trans ?_
      rw [(flight.vacating e vacating).1, vacating]
      simp [postingFor, Entry.vacant]
  | powers => exact .reset rfl rfl
  | resets => exact .reset rfl rfl
  | initialised _ => exact .reset rfl rfl

theorem HostOk.hands {s : State} (ok : HostOk s) (idle : s.host.state = .idle) (c : Instr) :
    HostOk (s.setWork (.handed c)) :=
  ok.outstanding (w := .handed c) (.inr idle) (Nat.zero_le 40) rfl
    ⟨fun h => absurd h (ok.not_rousing (by simp [ok.idle idle])), nofun⟩

/-- Settles O56: the Attention Unit's own invariant is kept by every posting, clearing and taking, and the posting states
follow the entries' standing. -/
theorem stepKeepsTheAttentionList : Obligations.StepKeepsTheAttentionList := fun _ _ h flight host ok =>
  step_keeps_of_effects (G := fun s => FlightOk s ∧ HostOk s)
    (fun _ _ g hs => ⟨⟨g.1.congr (.kept rfl rfl rfl) rfl rfl rfl rfl, g.2.congr rfl .rfl⟩, hs.kept rfl rfl rfl⟩)
    (fun _ c idle g hs => ⟨⟨g.1.idleWork rfl rfl rfl rfl, g.2.hands idle c⟩,
      hs.kept rfl rfl (by rw [(g.2.idle idle).2.2.1]; rfl)⟩)
    (fun _ _ idle _ g hs => hs.kept rfl rfl (by rw [(g.2.idle idle).2.2.1]; rfl))
    (fun _ _ g hs work effect => hs.hostEffect g.1 work effect)
    (fun _ _ g hs effect => hs.partEffect g.1 g.2 effect) h ⟨flight, host⟩ ok

end Sys2Proof.Machine
end

section
/-! PROOFS. The Handle Index and the ranges of the entries' fields (R3 to R9, R56, R61, R144). -/

namespace Sys2Proof.Machine

/-! ## What leaves every field of every record but its copies -/

/-- Every entry keeps all its fields but its copies. -/
def RecordsKept (s t : State) : Prop :=
  ∀ e : EntryNo, t.entry e =
    { s.entry e with current := (t.entry e).current, staged := (t.entry e).staged, held := (t.entry e).held }

theorem RecordsKept.of_entries {s t : State} (entries : t.table.entries = s.table.entries) : RecordsKept s t :=
  fun e => by
    have h : t.entry e = s.entry e := by simp only [State.entry, TableController.entry, entries]
    rw [h]

theorem RecordsKept.refl (s : State) : RecordsKept s s := .of_entries rfl

theorem RecordsKept.trans {s t u : State} (h : RecordsKept s t) (g : RecordsKept t u) : RecordsKept s u :=
  fun e => by rw [g e, h e]

/-- One entry changed in its copies alone. -/
theorem RecordsKept.setEntry {s t : State} {e : EntryNo} {x : Entry}
    (copies : x = { s.entry e with current := x.current, staged := x.staged, held := x.held })
    (entries : t.table.entries = (s.setEntry e x).table.entries) : RecordsKept s t := fun d => by
  have h : t.entry d = (s.setEntry e x).entry d := by simp only [State.entry, TableController.entry, entries]
  rw [h]
  by_cases hd : d = e
  · subst hd
    rw [State.entry_setEntry_self]
    exact copies
  · rw [State.entry_setEntry_ne _ _ hd]

theorem State.releasePin_records (s : State) : RecordsKept s s.releasePin := fun e => by rw [State.releasePin_entry]

theorem State.closeSequence_records (s : State) : RecordsKept s s.closeSequence := fun e => by
  rw [State.closeSequence_entry]

theorem State.breakSequence_records (s : State) : RecordsKept s s.breakSequence := fun e => by
  rw [State.breakSequence_entry]
  exact s.closeSequence_records e

theorem State.leaveListen_records (s : State) (m : LineMode) : RecordsKept s (s.leaveListen m) :=
  s.closeSequence_records.trans (.of_entries (by rw [State.leaveListen_table]))

theorem State.meetSequence_records (s : State) (continuation : Bool) : RecordsKept s (s.meetSequence continuation) := by
  unfold State.meetSequence
  split
  · exact .of_entries rfl
  · exact s.closeSequence_records

theorem State.met_records (s : State) (h : Handle) (a : Action) (t : Tag) : RecordsKept s (s.met h a t) :=
  (s.meetSequence_records _).trans (.of_entries rfl)

theorem State.serveRequest_entries (s : State) : s.serveRequest.table.entries = s.table.entries := by
  rw [State.serveRequest_frame]

theorem State.enterSpace_entries (s : State) (e : EntryNo) (a : Action) (t : Tag) :
    (s.enterSpace e a t).table.entries = s.table.entries := by
  have sent : s.sendRequest.table.entries = s.table.entries := by
    unfold State.sendRequest
    dsimp only
    repeat' split
    · rfl
    · rw [State.serveRequest_entries]; rfl
    · rw [State.serveRequest_entries]; rfl
  unfold State.enterSpace
  split
  · rw [State.decideRetire_table]
  all_goals exact sent

/-! ## The Handle Index through the shared operations -/

@[simp] theorem State.breakSequence_index (s : State) : s.breakSequence.table.index = s.table.index := by
  rw [State.breakSequence_table, State.closeSequence_index]

@[simp] theorem State.leaveListen_index (s : State) (m : LineMode) :
    (s.leaveListen m).table.index = s.table.index := by
  rw [State.leaveListen_table, State.closeSequence_index]

@[simp] theorem State.enterQuiet_index (s : State) (p : Phase) : (s.enterQuiet p).table.index = s.table.index :=
  State.enterQuiet_keeps (I := fun t => t.table.index = s.table.index) rfl fun _ _ => by simp

@[simp] theorem State.sendRequest_index (s : State) : s.sendRequest.table.index = s.table.index := by
  unfold State.sendRequest
  dsimp only
  repeat' split
  all_goals simp

@[simp] theorem State.enterSpace_index (s : State) (e : EntryNo) (a : Action) (t : Tag) :
    (s.enterSpace e a t).table.index = s.table.index := by
  unfold State.enterSpace
  split <;> simp

@[simp] theorem State.met_index (s : State) (h : Handle) (a : Action) (t : Tag) :
    (s.met h a t).table.index = s.table.index := by
  show (s.meetSequence (s.line.isContinuation h a t)).table.index = s.table.index
  unfold State.meetSequence
  split <;> simp

theorem TableController.lookup_congr {t u : TableController} (h : t.index = u.index) (g : Handle) :
    t.lookup g = u.lookup g := by simp only [TableController.lookup, h]

theorem IndexOk.congr {s t : State} (ok : IndexOk s) (index : t.table.index = s.table.index)
    (entries : ∀ e : EntryNo, (t.entry e).state.indexed = (s.entry e).state.indexed ∧
      ((s.entry e).state.indexed = true → (t.entry e).handle = (s.entry e).handle)) : IndexOk t := fun h e => by
  obtain ⟨indexed, handle⟩ := entries e
  rw [TableController.lookup_congr index, ok h e, indexed]
  exact and_congr_right fun hi => by rw [handle hi]

theorem IndexOk.kept {s t : State} (ok : IndexOk s) (index : t.table.index = s.table.index) (records : RecordsKept s t) :
    IndexOk t :=
  ok.congr index fun e => ⟨by rw [records e], fun _ => by rw [records e]⟩

/-- One entry changed, in the same standing towards the index. -/
theorem IndexOk.setEntry {s t : State} (ok : IndexOk s) (index : t.table.index = s.table.index) {e : EntryNo} {x : Entry}
    (entries : t.table.entries = (s.setEntry e x).table.entries)
    (indexed : x.state.indexed = (s.entry e).state.indexed)
    (handle : (s.entry e).state.indexed = true → x.handle = (s.entry e).handle) : IndexOk t :=
  ok.congr index fun d => by
    have h : t.entry d = (s.setEntry e x).entry d := by simp only [State.entry, TableController.entry, entries]
    rw [h]
    by_cases hd : d = e
    · subst hd
      rw [State.entry_setEntry_self]
      exact ⟨indexed, handle⟩
    · rw [State.entry_setEntry_ne _ _ hd]
      exact ⟨rfl, fun _ => rfl⟩

theorem State.teardown_index (s : State) (e : EntryNo) :
    (s.teardown e).table.index = if s.table.lookup (s.entry e).handle = some e
      then (s.table.setIndex (s.entry e).handle none).index else s.table.index := by
  rw [State.teardown_eq]

/-- The Handle Index after a teardown: the entry's pair has gone (R22). -/
theorem IndexOk.teardown_lookup {s : State} (ok : IndexOk s) (e d : EntryNo) (h : Handle) :
    (s.teardown e).table.lookup h = some d ↔ s.table.lookup h = some d ∧ d ≠ e := by
  have index : (s.teardown e).table.lookup h =
      if s.table.lookup (s.entry e).handle = some e ∧ h = (s.entry e).handle then none else s.table.lookup h := by
    have gone := s.teardown_index e
    by_cases hl : s.table.lookup (s.entry e).handle = some e
    · rw [if_pos hl] at gone
      rw [TableController.lookup_congr gone, TableController.lookup_setIndex]
      simp only [hl, true_and]
    · rw [if_neg hl] at gone
      rw [TableController.lookup_congr gone, if_neg fun h => hl h.1]
  rw [index]
  constructor
  · intro hd
    split at hd
    · cases hd
    · next hn =>
      refine ⟨hd, ?_⟩
      rintro rfl
      have := (ok h d).1 hd
      exact hn ⟨by rw [this.2]; exact hd, this.2.symm⟩
  · rintro ⟨hd, hne⟩
    rw [if_neg]
    · exact hd
    · rintro ⟨he, rfl⟩
      exact hne (Option.some.inj (hd.symm.trans he))

/-- An entry torn down and out of the index's four states (R22). -/
theorem IndexOk.teardown {s t : State} (ok : IndexOk s) {e : EntryNo}
    (index : t.table.index = (s.teardown e).table.index)
    (other : ∀ d : EntryNo, d ≠ e → t.entry d = s.entry d) (gone : (t.entry e).state.indexed = false) : IndexOk t :=
  fun h d => by
    rw [TableController.lookup_congr index, ok.teardown_lookup e d h]
    by_cases hd : d = e
    · subst hd
      simp [gone]
    · rw [other d hd, ok h d]
      simp [hd]

/-! ## The ranges of one entry's fields -/

/-- The ranges of one entry's fields (R3 to R5, R7, R56). -/
structure Entry.InRange (x : Entry) : Prop where
  length : x.state ≠ .vacant → 1 ≤ x.length ∧ x.length ≤ 64
  mirrorPermits : x.role = .mirror → x.permits.any = false
  storePermit : x.permits.storeOk = true → x.length ≤ 16
  limit : x.limit ≤ 65535
  age : x.age ≤ 65535
  ageAtRest : x.state = .vacant ∨ x.state = .draft ∨ x.state = .ended → x.age = 0
  sourceFlags : x.role = .source → x.staleSeen = false ∧ x.claimedSeen = false

theorem RangesOk.entry {s : State} (ok : RangesOk s) (e : EntryNo) : (s.entry e).InRange :=
  ⟨ok.length e, ok.mirrorPermits e, ok.storePermit e, ok.limit e, ok.age e, ok.ageAtRest e, ok.sourceFlags e⟩

theorem RangesOk.of_entries {s : State} (entries : ∀ e : EntryNo, (s.entry e).InRange)
    (hold : 40 ≤ s.line.hold ∧ s.line.hold ≤ 4000) (idleLimit : s.line.idleLimit ≤ 255) : RangesOk s :=
  ⟨fun e => (entries e).length, fun e => (entries e).mirrorPermits, fun e => (entries e).storePermit,
    fun e => (entries e).limit, fun e => (entries e).age, fun e => (entries e).ageAtRest,
    fun e => (entries e).sourceFlags, hold, idleLimit⟩

/-- The configured hold and idle limit are as they were. -/
def SameTimes (s t : State) : Prop := t.line.hold = s.line.hold ∧ t.line.idleLimit = s.line.idleLimit

theorem SameTimes.trans {s t u : State} (h : SameTimes s t) (g : SameTimes t u) : SameTimes s u :=
  ⟨g.1.trans h.1, g.2.trans h.2⟩

theorem EndsOnly.times {s t : State} (h : EndsOnly s t) : SameTimes s t := by
  constructor <;> rw [h.line]

theorem RangesOk.congr {s t : State} (ok : RangesOk s) (entries : ∀ e : EntryNo, (t.entry e).InRange)
    (times : SameTimes s t) : RangesOk t :=
  .of_entries entries (by rw [times.1]; exact ok.hold) (by rw [times.2]; exact ok.idleLimit)

theorem Entry.InRange.copies {x : Entry} (ok : x.InRange) {current staged : Option (List CellNo)}
    {held : Option HeldCopy} : ({ x with current := current, staged := staged, held := held } : Entry).InRange :=
  ⟨ok.length, ok.mirrorPermits, ok.storePermit, ok.limit, ok.age, ok.ageAtRest, ok.sourceFlags⟩

theorem RangesOk.kept {s t : State} (ok : RangesOk s) (records : RecordsKept s t) (times : SameTimes s t) :
    RangesOk t :=
  ok.congr (fun e => by rw [records e]; exact (ok.entry e).copies) times

theorem RangesOk.setEntry {s t : State} (ok : RangesOk s) {e : EntryNo} {x : Entry}
    (entries : t.table.entries = (s.setEntry e x).table.entries) (range : x.InRange) (times : SameTimes s t) :
    RangesOk t :=
  ok.congr (fun d => by
    have h : t.entry d = (s.setEntry e x).entry d := by simp only [State.entry, TableController.entry, entries]
    rw [h]
    by_cases hd : d = e
    · subst hd
      rw [State.entry_setEntry_self]
      exact range
    · rw [State.entry_setEntry_ne _ _ hd]
      exact ok.entry d) times

theorem Entry.vacant_inRange : Entry.vacant.InRange where
  length h := absurd rfl h
  mirrorPermits := nofun
  storePermit := nofun
  limit := Nat.zero_le _
  age := Nat.zero_le _
  ageAtRest _ := rfl
  sourceFlags _ := ⟨rfl, rfl⟩

theorem Entry.InRange.renewed {x : Entry} (ok : x.InRange) (present : x.state ≠ .vacant) (v : Version)
    {stale claimed : Bool} (flags : x.role = .source → stale = x.staleSeen ∧ claimed = x.claimedSeen)
    (cells : List CellNo) : (x.renewed v stale claimed cells).InRange where
  length _ := ok.length present
  mirrorPermits := ok.mirrorPermits
  storePermit := ok.storePermit
  limit := ok.limit
  age := Nat.zero_le _
  ageAtRest _ := rfl
  sourceFlags role := by
    obtain ⟨h1, h2⟩ := flags role
    obtain ⟨g1, g2⟩ := ok.sourceFlags role
    exact ⟨h1.trans g1, h2.trans g2⟩

theorem Entry.InRange.ended {x : Entry} (ok : x.InRange) (present : x.state ≠ .vacant) :
    ({ x with current := none, staged := none, held := none, state := .ended, age := 0 } : Entry).InRange :=
  ⟨fun _ => ok.length present, ok.mirrorPermits, ok.storePermit, ok.limit, Nat.zero_le _, fun _ => rfl, ok.sourceFlags⟩

/-- A tick leaves every field in its range: the age stops at 65535 and does not run at rest (R56). -/
theorem Entry.InRange.ticked {x : Entry} (ok : x.InRange) : x.ticked.InRange := by
  have age : x.advance.age ≤ 65535 := by
    have := ok.age
    simp only [Entry.advance, Config.maxAge]
    split <;> omega
  have rest : x.state = .vacant ∨ x.state = .draft ∨ x.state = .ended → x.advance.age = 0 := fun h => by
    have runs : x.ageRuns = false := by rcases h with h | h | h <;> simp [Entry.ageRuns, h]
    simp only [Entry.advance, runs]
    exact ok.ageAtRest h
  unfold Entry.ticked
  split
  · next expires =>
    have live : x.state = .live := (of_decide_eq_true expires).1
    exact ⟨fun _ => ok.length (by rw [live]; decide), ok.mirrorPermits, ok.storePermit, ok.limit, age, nofun,
      ok.sourceFlags⟩
  · exact ⟨ok.length, ok.mirrorPermits, ok.storePermit, ok.limit, age, rest, ok.sourceFlags⟩

theorem EntryState.ne_vacant_of_working {x : EntryState} (h : x.working = true) : x ≠ .vacant := by
  rintro rfl
  cases h

theorem EntryState.indexed_of_working {x : EntryState} (h : x.working = true) : x.indexed = true := by
  cases x <;> simp_all [EntryState.working, EntryState.indexed]

/-! ## The end of a frame -/

theorem IndexOk.report {s t : State} {how : FrameEnd} {e : EntryNo} (ok : IndexOk s) (landing : Landing s e)
    (report : TableReport s how e t) : IndexOk t := by
  cases report with
  | vacates =>
    refine ok.teardown (e := e) ?_ (fun d hd => ?_) ?_
    · rw [State.vacate_table, TableController.setEntry_index]
    · rw [State.entry_vacate_ne _ hd, State.teardown_entry_ne s hd]
    · rw [State.entry_vacate_self]; rfl
  | nothing => exact ok
  | posts => exact ok
  | overwrites v a b cells data state _ _ _ =>
    exact ok.setEntry rfl (x := (s.entry e).renewed v a b cells) rfl landing.standing.symm fun _ => rfl
  | makes v a b cells p data state _ _ _ _ _ =>
    exact ok.setEntry rfl (x := (s.entry e).renewed v a b cells) rfl landing.standing.symm fun _ => rfl
  | opens v cells p data => exact ok.setEntry rfl (x := { s.entry e with staged := some cells }) rfl rfl fun _ => rfl
  | goesOn => exact ok
  | completes q data b state _ _ _ =>
    rw [State.completeAssembly_eq]
    exact ok.setEntry rfl (x := { (s.entry e).renewed (tagVersion b) (tagStale b) (tagClaimed b)
      ((s.entry e).staged.getD []) with staged := none }) rfl landing.standing.symm fun _ => rfl
  | breaks => exact ok.kept s.breakSequence_index s.breakSequence_records
  | serves => exact ok
  | served => exact ok.kept s.releasePin_index s.releasePin_records
  | answerFails =>
    exact ok.kept (by rw [State.breakSequence_index, State.releasePin_index])
      (s.releasePin_records.trans s.releasePin.breakSequence_records)
  | ends =>
    refine ok.teardown (e := e) ?_ (fun d hd => State.endEntry_entry_ne s hd) ?_
    · rw [State.endEntry_eq, State.post_table, State.setPosting_table, State.setEntry_table,
        TableController.setEntry_index]
    · rw [State.endEntry_entry_self]; rfl

theorem RangesOk.report {s t : State} {how : FrameEnd} {e : EntryNo} (ok : RangesOk s) (landing : Landing s e)
    (report : TableReport s how e t) : RangesOk t := by
  have present : (s.entry e).state ≠ .vacant := fun h => by
    have := landing.standing
    simp [h, EntryState.indexed] at this
  cases report with
  | vacates =>
    refine ok.congr (fun d => ?_) ((s.teardown_reports e).vacate e).ends.times
    by_cases hd : d = e
    · subst hd; rw [State.entry_vacate_self]; exact Entry.vacant_inRange
    · rw [State.entry_vacate_ne _ hd, State.teardown_entry_ne s hd]; exact ok.entry d
  | nothing => exact ok
  | posts => exact ok.kept (.refl s) ⟨rfl, rfl⟩
  | overwrites v a b cells data _ _ flags _ =>
    exact ok.setEntry (e := e) rfl ((ok.entry e).renewed present v flags cells) ⟨rfl, rfl⟩
  | makes v a b cells p data _ _ flags _ _ _ =>
    exact ok.setEntry (e := e) rfl ((ok.entry e).renewed present v flags cells) ⟨rfl, rfl⟩
  | opens v cells p data => exact ok.setEntry (e := e) rfl (ok.entry e).copies ⟨rfl, rfl⟩
  | goesOn => exact ok.kept (.of_entries rfl) ⟨rfl, rfl⟩
  | completes q data b state _ role _ =>
    rw [State.completeAssembly_eq]
    exact ok.setEntry (e := e) rfl ((ok.entry e).renewed present _ (fun h => by simp [role] at h) _).copies ⟨rfl, rfl⟩
  | breaks => exact ok.kept s.breakSequence_records s.breakSequence_reports.ends.times
  | serves => exact ok.kept (.of_entries rfl) ⟨rfl, rfl⟩
  | served => exact ok.kept s.releasePin_records s.releasePin_reports.ends.times
  | answerFails =>
    exact ok.kept (s.releasePin_records.trans s.releasePin.breakSequence_records)
      (s.releasePin_reports.ends.times.trans s.releasePin.breakSequence_reports.ends.times)
  | ends =>
    refine ok.congr (fun d => ?_) (s.endEntry_reports e).ends.times
    by_cases hd : d = e
    · subst hd; rw [State.endEntry_entry_self]; exact (ok.entry d).ended present
    · rw [State.endEntry_entry_ne s hd]; exact ok.entry d

/-! ## Both together -/

/-- The Handle Index and the ranges. -/
structure TableOk (s : State) : Prop where
  index : IndexOk s
  ranges : RangesOk s

theorem TableOk.kept {s t : State} (ok : TableOk s) (index : t.table.index = s.table.index) (records : RecordsKept s t)
    (times : SameTimes s t) : TableOk t := ⟨ok.index.kept index records, ok.ranges.kept records times⟩

/-- The table and the configuration are as they were. -/
theorem TableOk.same {s t : State} (ok : TableOk s) (table : t.table = s.table) (times : SameTimes s t) : TableOk t :=
  ok.kept (by rw [table]) (.of_entries (by rw [table])) times

theorem TableOk.setEntry {s t : State} (ok : TableOk s) (index : t.table.index = s.table.index) {e : EntryNo} {x : Entry}
    (entries : t.table.entries = (s.setEntry e x).table.entries) (times : SameTimes s t)
    (indexed : x.state.indexed = (s.entry e).state.indexed)
    (handle : (s.entry e).state.indexed = true → x.handle = (s.entry e).handle) (range : x.InRange) : TableOk t :=
  ⟨ok.index.setEntry index entries indexed handle, ok.ranges.setEntry entries range times⟩

theorem TableOk.breakSequence {s : State} (ok : TableOk s) : TableOk s.breakSequence :=
  ok.kept s.breakSequence_index s.breakSequence_records s.breakSequence_reports.ends.times

theorem TableOk.leaveListen {s : State} (ok : TableOk s) (m : LineMode) : TableOk (s.leaveListen m) :=
  ok.kept (s.leaveListen_index m) (s.leaveListen_records m) (by rw [SameTimes, State.leaveListen_line]; exact ⟨rfl, rfl⟩)

theorem TableOk.enterQuiet {s : State} (ok : TableOk s) (p : Phase) : TableOk (s.enterQuiet p) :=
  State.enterQuiet_keeps (I := TableOk) (ok.same rfl ⟨rfl, rfl⟩) fun _ _ =>
    TableOk.leaveListen (s := { s with line := s.line.quieted p }) (ok.same rfl ⟨rfl, rfl⟩) _

theorem TableOk.postFrame {s : State} (ok : TableOk s) (c : Cause) : TableOk (s.postFrame c) :=
  ok.same (s.postFrame_table c) (s.postFrame_reports c).ends.times

theorem TableOk.setCondition {s : State} (ok : TableOk s) (c : LineCondition) : TableOk (s.setCondition c) :=
  ok.same rfl ⟨rfl, rfl⟩

theorem TableOk.frameEnd {s : State} (ok : TableOk s) (flight : FlightOk s) (phase : s.line.phase.inFlight = true)
    (how : FrameEnd) : TableOk (s.frameEnd how) := by
  have served : TableOk s.serveRequest :=
    ok.kept s.serveRequest_index (.of_entries s.serveRequest_entries) s.serveRequest_ends.times
  have phase : s.serveRequest.line.phase.inFlight = true := by rw [State.serveRequest_line]; exact phase
  obtain ⟨e, entry⟩ := Option.isSome_iff_exists.1 (flight.serveRequest.marked phase).1
  have reported : TableOk ((s.serveRequest.reportToClaims how e).setInFlight none) :=
    served.kept (by rw [State.setInFlight_table, State.reportToClaims_table])
      (.of_entries (by rw [State.setInFlight_table, State.reportToClaims_table]))
      (s.serveRequest.reportToClaims_reports how e).ends.times
  have landing := flight.serveRequest.landing phase entry how
  have report := State.reportEnd_report entry how
  exact ⟨reported.index.report landing report, reported.ranges.report landing report⟩

theorem TableOk.decodeAction {s : State} (ok : TableOk s) (h : Handle) (a : Action) (t : Tag) :
    TableOk (s.decodeAction h a t) := by
  have met : TableOk (s.met h a t) :=
    ok.kept (s.met_index h a t) (s.met_records h a t) (by rw [SameTimes, State.met_line]; exact ⟨rfl, rfl⟩)
  have posted : ∀ {r : State}, TableOk r → TableOk (r.postAt (s.brokenAt h a t) .segBroken) := fun hr =>
    hr.same (by rw [State.postAt_table]) (by rw [SameTimes, State.postAt_line]; exact ⟨rfl, rfl⟩)
  have started : ∀ (p : Phase) (e : EntryNo) (n : Nat), TableOk ((s.met h a t).startFrame p e n) := fun p e n =>
    met.kept rfl (.of_entries rfl) ⟨rfl, rfl⟩
  generalize out : s.decodeAction h a t = u
  have decoded := s.decodeAction_decoded h a t
  rw [out] at decoded
  cases decoded with
  | skips path => exact (posted met).enterQuiet _
  | skipsPosting e c entry path =>
    exact TableOk.enterQuiet (s := ((s.met h a t).postAt (s.brokenAt h a t) .segBroken).post e c)
      ((posted met).same rfl ⟨rfl, rfl⟩) _
  | answers e n entry path =>
    exact (posted (started _ e n)).kept (State.enterSpace_index _ _ _ _)
      (.of_entries (State.enterSpace_entries _ _ _ _)) (by rw [SameTimes, State.enterSpace_line]; exact ⟨rfl, rfl⟩)
  | receives e n entry path => exact (posted (started _ e n)).same rfl ⟨rfl, rfl⟩

/-! ## The effects -/

theorem TableOk.reset {t : State} (table : t.table = TableController.reset)
    (hold : 40 ≤ t.line.hold ∧ t.line.hold ≤ 4000) (idleLimit : t.line.idleLimit ≤ 255) : TableOk t := by
  have entry : ∀ e : EntryNo, t.entry e = Entry.vacant := fun e => by
    rw [State.entry, table]
    simp [TableController.entry, TableController.reset]
  refine ⟨fun h e => ?_, .of_entries (fun e => by rw [entry]; exact Entry.vacant_inRange) hold idleLimit⟩
  rw [entry, table]
  simp [TableController.lookup, TableController.reset, Entry.vacant, EntryState.indexed]

theorem TableOk.default {t : State} (table : t.table = TableController.reset) (hold : t.line.hold = Config.defaultHold)
    (idleLimit : t.line.idleLimit = 0) : TableOk t :=
  .reset table (by rw [hold]; decide) (by rw [idleLimit]; decide)

theorem TableOk.tick {s : State} (ok : TableOk s) : TableOk s.tick := by
  have counted : TableOk s.counted := by
    have entry : ∀ e : EntryNo, s.counted.entry e = (s.entry e).ticked := fun e => s.table.ticked_entry e
    refine ⟨ok.index.congr rfl fun e => ?_, ok.ranges.congr (fun e => ?_) ?_⟩
    · rw [entry]
      refine ⟨(s.entry e).ticked_kin.indexed, fun _ => ?_⟩
      unfold Entry.ticked
      split <;> rfl
    · rw [entry]
      exact (ok.ranges.entry e).ticked
    · simp only [SameTimes, State.counted, LineUnit.idleTicked_eq, and_self]
  rw [State.tick_eq]
  split
  · unfold State.idleExpired
    split
    · exact counted.kept s.counted.closeSequence_index s.counted.closeSequence_records
        s.counted.closeSequence_reports.ends.times
    · exact counted.same rfl ⟨rfl, rfl⟩
  · exact counted.same rfl ⟨rfl, rfl⟩

/-- The entry a DEFINE makes has its fields in range (R15, R16). -/
theorem definedEntry_inRange {handle : Half} {role len permits : Byte} {mask : Half}
    (args : defineArgumentsOk handle role len permits mask = true) (limit : Half) :
    (definedEntry handle role len permits limit).InRange := by
  simp only [defineArgumentsOk, Bool.and_eq_true, decide_eq_true_eq] at args
  obtain ⟨⟨⟨_, length⟩, _⟩, roles⟩ := args
  refine ⟨fun _ => length, fun mirror => ?_, fun store => ?_, ?_, Nat.zero_le _, fun _ => rfl, fun _ => ⟨rfl, rfl⟩⟩
  · simp only [definedEntry] at mirror ⊢
    split at roles
    · cases roles
    · simpa using roles
    · next h => simp [h] at mirror
  · simp only [definedEntry] at store ⊢
    split at roles
    · cases roles
    · simp [Permits.any, store] at roles
    · simp only [store, Bool.true_and, Bool.not_eq_true', decide_eq_false_iff_not] at roles
      omega
  · have := limit.isLt
    simp only [definedEntry]
    omega

/-- What AMEND makes of its entry (R18). -/
def Entry.amend (x : Entry) (selector permits : Byte) (limit : Half) : Entry :=
  { x with
    permits := if selector.getLsbD 0 then Permits.ofByte permits else x.permits
    limit := if selector.getLsbD 2 then limit.toNat else x.limit
    amended := selector.getLsbD 2 || x.amended }

theorem State.amendEntry_eq (s : State) (e : EntryNo) (selector permits : Byte) (mask limit : Half) :
    s.amendEntry e selector permits mask limit = { s with
      table := s.table.setEntry e ((s.entry e).amend selector permits limit)
      attention := if selector.getLsbD 1 then
          s.attention.setRecord e { s.attention.record e with mask := storedMask mask }
        else s.attention } := by
  unfold State.amendEntry
  dsimp only
  split <;> rfl

/-- An AMEND that passes its checks leaves the entry's fields in range (R17, R18). -/
theorem Entry.InRange.amend {x : Entry} (ok : x.InRange) {selector permits : Byte} {mask : Half}
    (args : amendArgumentsOk x selector permits mask = true) (limit : Half) :
    (x.amend selector permits limit).InRange := by
  simp only [amendArgumentsOk, Bool.and_eq_true, Bool.not_eq_true'] at args
  obtain ⟨⟨⟨_, mirror⟩, store⟩, _⟩ := args
  refine ⟨ok.length, fun role => ?_, fun permit => ?_, ?_, ok.age, ok.ageAtRest, ok.sourceFlags⟩
  · dsimp only [Entry.amend] at role ⊢
    split
    · next named => simpa [named, role] using mirror
    · exact ok.mirrorPermits role
  · dsimp only [Entry.amend] at permit ⊢
    split at permit
    · next named =>
      simp only [named, permit, Bool.true_and, decide_eq_false_iff_not] at store
      omega
    · exact ok.storePermit permit
  · have := limit.isLt
    have := ok.limit
    dsimp only [Entry.amend]
    split <;> omega

/-- What COMMIT makes of its entry, its copies but for the held one (R39). -/
def Entry.committed (x : Entry) (cells : List CellNo) (held : Option HeldCopy) : Entry :=
  { x with
    state := .live, age := 0, version := x.version + 1, current := some cells, staged := none, held := held }

theorem TableController.setEntry_setEntry (t : TableController) (e : EntryNo) (x y : Entry) :
    (t.setEntry e x).setEntry e y = t.setEntry e y := by simp [TableController.setEntry]

/-- A COMMIT whose old current copy is not pinned frees it (R39). -/
theorem State.commitEntry_unpinned {s : State} {e : EntryNo}
    (free : (s.entry e).current = none ∨ s.currentPinned e = false) (cells : List CellNo) :
    s.commitEntry e cells = { s with
      table := s.table.setEntry e ((s.entry e).committed cells (s.entry e).held)
      pool := s.pool.release ((s.entry e).current.getD []) } := by
  have retired : s.retireCurrent e = { s with
      table := s.table.setEntry e { s.entry e with current := none }
      pool := s.pool.release ((s.entry e).current.getD []) } := by
    rw [← State.freeCurrent_eq]
    unfold State.retireCurrent
    split
    · next none => simp [State.freeCurrent, none]
    · next cells some =>
      have unpinned : s.currentPinned e = false := by simpa [some] using free
      simp [unpinned]
  unfold State.commitEntry
  rw [retired]
  simp only [State.setEntry, State.entry, TableController.entry_setEntry_self, TableController.setEntry_setEntry]
  rfl

/-- A COMMIT whose old current copy is pinned keeps it as the held copy, under the same pin (R39, R40). -/
theorem State.commitEntry_pinned {s : State} {e : EntryNo} {old : List CellNo} (current : (s.entry e).current = some old)
    (pinned : s.currentPinned e = true) (cells : List CellNo) :
    s.commitEntry e cells = { s with
      table := { s.table.setEntry e ((s.entry e).committed cells (some ⟨old, (s.entry e).version⟩)) with
        pin := s.table.pin.map fun p => { p with kind := .held } } } := by
  unfold State.commitEntry State.retireCurrent
  simp only [current, pinned, if_true, State.setPin_entry, State.entry_setEntry_self]
  simp only [State.setEntry, State.setPin, TableController.setEntry, Vector.set_set]
  rfl

theorem State.commitEntry_table (s : State) (e : EntryNo) (cells : List CellNo) :
    (s.commitEntry e cells).table.index = s.table.index ∧ ∃ held : Option HeldCopy,
      (s.commitEntry e cells).table.entries = (s.setEntry e ((s.entry e).committed cells held)).table.entries := by
  by_cases free : (s.entry e).current = none ∨ s.currentPinned e = false
  · rw [State.commitEntry_unpinned free]
    exact ⟨rfl, _, rfl⟩
  · rw [not_or] at free
    obtain ⟨old, current⟩ := Option.ne_none_iff_exists'.1 free.1
    rw [State.commitEntry_pinned current (by simpa using free.2)]
    exact ⟨rfl, _, rfl⟩

theorem Entry.InRange.committed {x : Entry} (ok : x.InRange) (present : x.state ≠ .vacant) (cells : List CellNo)
    (held : Option HeldCopy) : (x.committed cells held).InRange :=
  ⟨fun _ => ok.length present, ok.mirrorPermits, ok.storePermit, ok.limit, Nat.zero_le _, fun _ => rfl, ok.sourceFlags⟩

theorem Entry.InRange.retiring {x : Entry} (ok : x.InRange) (present : x.state ≠ .vacant) :
    ({ x with state := .retiring } : Entry).InRange :=
  ⟨fun _ => ok.length present, ok.mirrorPermits, ok.storePermit, ok.limit, ok.age, nofun, ok.sourceFlags⟩

/-- An entry that is not in the index is made VACANT. -/
theorem TableOk.vacate {s : State} (ok : TableOk s) {e : EntryNo} {state : EntryState} (ended : (s.entry e).state = state)
    (gone : state.indexed = false) : TableOk (s.vacate e) :=
  ok.setEntry (e := e) rfl rfl ⟨rfl, rfl⟩ (by rw [ended, gone]; rfl) (fun h => by simp [ended, gone] at h)
    Entry.vacant_inRange

/-- A new entry takes the handle that the index does not hold (R15, R16). -/
theorem TableOk.define {s : State} (ok : TableOk s) {e : EntryNo} {handle : Half} {role len permits : Byte} {mask : Half}
    (args : defineArgumentsOk handle role len permits mask = true) (limit : Half)
    (fresh : s.table.lookup (handle.truncate 9) = none) (vacant : (s.entry e).state = .vacant) :
    TableOk (s.defineEntry e handle role len permits limit mask) := by
  have self : (s.defineEntry e handle role len permits limit mask).entry e =
      definedEntry handle role len permits limit := State.entry_setEntry_self s e _
  have other : ∀ d : EntryNo, d ≠ e → (s.defineEntry e handle role len permits limit mask).entry d = s.entry d :=
    fun d hd => State.entry_setEntry_ne s _ hd
  have lookup : ∀ g : Handle, (s.defineEntry e handle role len permits limit mask).table.lookup g =
      if g = handle.truncate 9 then some e else s.table.lookup g := fun g =>
    TableController.lookup_setIndex (s.table.setEntry e _) _ g _
  refine ⟨fun g d => ?_, ok.ranges.congr (fun d => ?_) ⟨rfl, rfl⟩⟩
  · rw [lookup]
    by_cases hd : d = e
    · subst hd
      have gone : s.table.lookup g ≠ some d := fun h => by
        have := ((ok.index g d).1 h).1
        simp [vacant, EntryState.indexed] at this
      rw [self]
      by_cases hg : g = handle.truncate 9
      · simp [hg, definedEntry, EntryState.indexed]
      · simp [hg, gone, definedEntry, Ne.symm hg]
    · rw [other d hd, ← ok.index g d]
      by_cases hg : g = handle.truncate 9
      · subst hg
        simp [fresh, Ne.symm hd]
      · simp [hg]
  · by_cases hd : d = e
    · subst hd; rw [self]; exact definedEntry_inRange args limit
    · rw [other d hd]; exact ok.ranges.entry d

theorem TableOk.hostEffect {s t : State} (ok : TableOk s) (effect : HostEffect s t) (flight : FlightOk s) :
    TableOk t := by
  have done : ∀ {r : State} (status : Status) (data : List Byte), TableOk r → TableOk (r.complete status data) :=
    fun status data h => h.same rfl ⟨rfl, rfl⟩
  cases effect with
  | replies status data _ _ => exact done _ _ ok
  | configures r holdTb idle lease range _ =>
    simp only [configureInRange, decide_eq_true_eq] at range
    exact ⟨ok.index.kept rfl (.of_entries rfl), .of_entries ok.ranges.entry ⟨range.1, range.2.1⟩
      (Nat.le_of_lt_succ idle.isLt)⟩
  | leaves m _ _ => exact done _ _ (ok.leaveListen m)
  | waits w _ => exact ok.same rfl ⟨rfl, rfl⟩
  | abandons phase => exact done _ _ (((ok.frameEnd flight phase .abandoned).setCondition .abandoned).leaveListen .offline)
  | collides phase => exact done _ _ (((ok.frameEnd flight phase .collided).postFrame .collided).leaveListen .offline)
  | enters _ => exact done _ _ (ok.same rfl ⟨rfl, rfl⟩)
  | quits m _ _ => exact done _ _ (ok.same rfl ⟨rfl, rfl⟩)
  | rouses _ => exact ok.same rfl ⟨rfl, rfl⟩
  | defines e handle role len permits limit mask args fresh vacant =>
    have state : (s.entry e).state = .vacant := ((TableController.firstVacant_eq_some _ _).1 vacant).1
    exact done _ _ (ok.define args limit fresh state)
  | amends e selector permits mask limit working args =>
    rw [State.amendEntry_eq]
    exact done _ _ (ok.setEntry (e := e) rfl rfl ⟨rfl, rfl⟩ rfl (fun _ => rfl) ((ok.ranges.entry e).amend args limit))
  | stagesInPlace e cells o data _ => exact done _ _ (ok.same rfl ⟨rfl, rfl⟩)
  | stages e cells p o data _ _ _ _ =>
    exact ok.setEntry (e := e) rfl rfl ⟨rfl, rfl⟩ rfl (fun _ => rfl) (ok.ranges.entry e).copies
  | commits e cells working _ _ =>
    obtain ⟨index, held, entries⟩ := s.commitEntry_table e cells
    exact done _ _ (ok.setEntry index entries (by rw [SameTimes, State.commitEntry_line]; exact ⟨rfl, rfl⟩)
      (EntryState.indexed_of_working working).symm (fun _ => rfl)
      ((ok.ranges.entry e).committed (EntryState.ne_vacant_of_working working) cells held))
  | discards e _ _ =>
    rw [State.freeStaged_eq]
    exact done _ _ (ok.setEntry (e := e) rfl rfl ⟨rfl, rfl⟩ rfl (fun _ => rfl) (ok.ranges.entry e).copies)
  | marksRetiring e working mark =>
    exact ok.setEntry (e := e) rfl rfl ⟨rfl, rfl⟩ (EntryState.indexed_of_working working).symm (fun _ => rfl)
      ((ok.ranges.entry e).retiring (EntryState.ne_vacant_of_working working))
  | tearsDown e _ mark =>
    have self : ((((s.teardown e).clear e).vacate e).complete .done [EntryState.code .vacant]).entry e = Entry.vacant :=
      by rw [State.complete_entry, State.entry_vacate_self]
    have other : ∀ d : EntryNo, d ≠ e →
        ((((s.teardown e).clear e).vacate e).complete .done [EntryState.code .vacant]).entry d = s.entry d :=
      fun d hd => by
        rw [State.complete_entry, State.entry_vacate_ne _ hd, State.clear_entry, State.teardown_entry_ne s hd]
    refine ⟨ok.index.teardown (e := e) ?_ other (by rw [self]; rfl), ok.ranges.congr (fun d => ?_) ?_⟩
    · rw [State.complete_table, State.vacate_table, TableController.setEntry_index, State.clear_table]
    · by_cases hd : d = e
      · subst hd; rw [self]; exact Entry.vacant_inRange
      · rw [other d hd]; exact ok.ranges.entry d
    · rw [SameTimes, State.complete_line, State.vacate_line, State.clear_line]
      exact (s.teardown_reports e).ends.times
  | vacates e state => exact done _ _ (TableOk.vacate (s := s.clear e) (ok.same rfl ⟨rfl, rfl⟩) state rfl)
  | holds e k _ _ _ => exact done _ _ (ok.same rfl ⟨rfl, rfl⟩)
  | frees k => exact done _ _ (ok.same rfl ⟨rfl, rfl⟩)
  | freesPosting k e => exact done _ _ (ok.same rfl ⟨rfl, rfl⟩)
  | takes e rest list posting => exact done _ _ (ok.same rfl ⟨rfl, rfl⟩)
  | takesEnding e rest list posting => exact ok.same rfl ⟨rfl, rfl⟩
  | emptiesConditions => exact done _ _ (ok.same rfl ⟨rfl, rfl⟩)
  | restarts => exact .reset rfl ok.ranges.hold ok.ranges.idleLimit

theorem LineEffect.times {l m : LineUnit} (effect : LineEffect l m) : m.hold = l.hold ∧ m.idleLimit = l.idleLimit := by
  cases effect <;> exact ⟨rfl, rfl⟩

theorem Entry.InRange.stale {x : Entry} (ok : x.InRange) (live : x.state = .live) :
    ({ x with state := .stale } : Entry).InRange :=
  ⟨fun _ => ok.length (by rw [live]; decide), ok.mirrorPermits, ok.storePermit, ok.limit, ok.age, nofun, ok.sourceFlags⟩

theorem TableOk.partEffect {s t : State} (ok : TableOk s) (flight : FlightOk s) {draw : Drawn} (effect : PartEffect s draw t) :
    TableOk t := by
  have landed : ∀ b : Byte, TableOk (s.landByte b) := fun b => ok.same rfl ⟨rfl, rfl⟩
  have inFlight : s.line.phase = .space ∨ s.line.phase = .answering → s.line.phase.inFlight = true := by
    rintro (h | h) <;> rw [h] <;> rfl
  have receives : s.line.phase = .receiving → s.line.phase.inFlight = true := fun h => by rw [h]; rfl
  have broken : ∀ {r : State}, TableOk r → TableOk r.newFrame := fun h => h.same rfl ⟨rfl, rfl⟩
  cases effect with
  | nothing => exact ok
  | port h effect => exact ok.same rfl ⟨rfl, rfl⟩
  | line l effect => exact ok.same rfl effect.times
  | answerCompletes _ phase => exact (ok.frameEnd flight (inFlight (.inr phase)) .completed).enterQuiet _
  | collides _ phase => exact ((ok.frameEnd flight (inFlight phase) .collided).postFrame .collided).enterQuiet _
  | collidesInBreak _ phase => exact broken ((ok.frameEnd flight (inFlight phase) .collided).postFrame .collided)
  | spaceEnds _ phase answer =>
    exact ok.kept s.serveRequest_index (.of_entries s.serveRequest_entries) s.serveRequest_ends.times
  | received b _ phase => exact ((landed b).frameEnd (flight.landByte b) (receives phase) .received).enterQuiet _
  | lastByteWrong b _ phase =>
    exact (((landed b).frameEnd (flight.landByte b) (receives phase) .faulty).postFrame .damaged).enterQuiet _
  | receptionFails c _ phase => exact ((ok.frameEnd flight (receives phase) .faulty).postFrame c).enterQuiet _
  | cut _ phase =>
    exact broken (((ok.setCondition .cut).frameEnd (flight.setCondition .cut) (receives phase) .cut).postFrame .damaged)
  | sticksInFlight _ phase =>
    exact ((ok.setCondition .lineStuck).frameEnd (flight.setCondition .lineStuck) phase .faulty).enterQuiet _
  | sticks _ phase => exact (ok.setCondition .lineStuck).enterQuiet _
  | quiets _ phase => exact ok.enterQuiet _
  | headerFails c _ phase => exact (ok.setCondition c).breakSequence.enterQuiet _
  | decodes h a t _ phase => exact ok.decodeAction h a t
  | breaks _ phase => exact broken ok
  | breaksHeader _ phase => exact broken (ok.setCondition .headerFraming).breakSequence
  | wakes _ => exact ok.same rfl ⟨rfl, rfl⟩
  | wakesStuck _ => exact ok.same rfl ⟨rfl, rfl⟩
  | rouseEnds mode => exact ok.same rfl ⟨rfl, rfl⟩
  | rouseSticks mode => exact ok.same rfl ⟨rfl, rfl⟩
  | holdExpires q _ _ => exact ok.breakSequence
  | idles _ phase => exact ok.leaveListen .dormant
  | ticks _ => exact ok.tick
  | freshnessExpires e expires =>
    have live : (s.entry e).state = .live := (of_decide_eq_true expires).1
    exact ok.setEntry (e := e) rfl rfl ⟨rfl, rfl⟩ (by rw [live]; rfl) (fun _ => rfl) ((ok.ranges.entry e).stale live)
  | leaseExpires k e => exact ok.same rfl ⟨rfl, rfl⟩
  | vacates e reply work =>
    exact (ok.vacate (flight.vacating e (by rw [work]; rfl)).1 rfl).same rfl ⟨rfl, rfl⟩
  | powers => exact .default rfl rfl rfl
  | resets => exact .default rfl rfl rfl
  | initialised _ => exact .default rfl rfl rfl

theorem FlightOk.withPending {s : State} (ok : FlightOk s) (rest : List Instr) : FlightOk { s with pending := rest } :=
  ok.congr (.kept rfl rfl rfl) rfl rfl rfl rfl

theorem FlightOk.hands {s : State} (ok : FlightOk s) (c : Instr) : FlightOk (s.setWork (.handed c)) :=
  ok.idleWork rfl rfl rfl rfl

/-- Settles O57: an effect keeps every record but for its copies, changes one entry within its ranges, or takes one out
of the index or into it. -/
theorem stepKeepsTheRecordTable : Obligations.StepKeepsTheRecordTable := fun s t h flight index ranges =>
  have ok : TableOk t := step_keeps_of_effects (G := FlightOk)
    (fun _ rest g hs => ⟨g.withPending rest, hs.same rfl ⟨rfl, rfl⟩⟩)
    (fun _ c _ g hs => ⟨g.hands c, hs.same rfl ⟨rfl, rfl⟩⟩)
    (fun _ _ _ _ _ hs => hs.same rfl ⟨rfl, rfl⟩) (fun _ _ g hs _ effect => hs.hostEffect effect g)
    (fun _ _ g hs effect => hs.partEffect g effect) h flight (⟨index, ranges⟩ : TableOk s)
  ⟨ok.index, ok.ranges⟩

end Sys2Proof.Machine
end

section
/-! PROOFS. The Claim Table (R66 to R74): slots on SOURCE entries of the Handle Index, one for an entry, and a RESERVED
slot only for the CLAIM frame in flight. -/

namespace Sys2Proof.Machine

/-! ## What a slot asks of its entry -/

/-- Every entry keeps its role, and its place in the Handle Index or out of it. -/
def SameClaimants (s t : State) : Prop :=
  ∀ e : EntryNo, (t.entry e).role = (s.entry e).role ∧ (t.entry e).state.indexed = (s.entry e).state.indexed

theorem RecordsKept.claimants {s t : State} (h : RecordsKept s t) : SameClaimants s t :=
  fun e => by rw [h e]; exact ⟨rfl, rfl⟩

theorem SameClaimants.refl (s : State) : SameClaimants s s := fun _ => ⟨rfl, rfl⟩

theorem SameClaimants.of_entries {s t : State} (entries : t.table.entries = s.table.entries) : SameClaimants s t :=
  (RecordsKept.of_entries entries).claimants

theorem SameClaimants.setEntry {s t : State} {e : EntryNo} {x : Entry}
    (entries : t.table.entries = (s.setEntry e x).table.entries) (role : x.role = (s.entry e).role)
    (indexed : x.state.indexed = (s.entry e).state.indexed) : SameClaimants s t := fun d => by
  have h : t.entry d = (s.setEntry e x).entry d := by simp only [State.entry, TableController.entry, entries]
  rw [h]
  by_cases hd : d = e
  · subst hd
    rw [State.entry_setEntry_self]
    exact ⟨role, indexed⟩
  · rw [State.entry_setEntry_ne _ _ hd]
    exact ⟨rfl, rfl⟩

/-- What a slot asks for while no CLAIM is in flight: it is not RESERVED, and its entry is an indexed SOURCE. -/
def slotRests (s : State) : Slot → Prop
  | .free => True
  | .heldHost e => (s.entry e).role = .source ∧ (s.entry e).state.indexed = true
  | .heldLine e t lease =>
    (s.entry e).role = .source ∧ (s.entry e).state.indexed = true ∧ t ≠ 0#4 ∧ 1 ≤ lease ∧ lease ≤ 60000
  | .reserved _ _ _ _ => False

theorem slotRests.ok {s : State} {x : Slot} (h : slotRests s x) : slotOk s x := by
  cases x with
  | reserved => exact h.elim
  | _ => exact h

theorem slotRests.unreserved {s : State} {x : Slot} (h : slotRests s x) : x.isReserved = false := by
  cases x with
  | reserved => exact h.elim
  | _ => rfl

theorem slotOk.rests {s : State} {x : Slot} (h : slotOk s x) (unreserved : x.isReserved = false) : slotRests s x := by
  cases x with
  | reserved => cases unreserved
  | _ => exact h

theorem slotRests.congr {s t : State} {x : Slot} (h : slotRests s x)
    (same : ∀ e : EntryNo, x.names e = true →
      (t.entry e).role = (s.entry e).role ∧ (t.entry e).state.indexed = (s.entry e).state.indexed) : slotRests t x := by
  cases x with
  | free => trivial
  | reserved => exact h.elim
  | heldLine e tag lease =>
    obtain ⟨role, indexed⟩ := same e (by simp [Slot.names])
    exact ⟨role.trans h.1, indexed.trans h.2.1, h.2.2⟩
  | heldHost e =>
    obtain ⟨role, indexed⟩ := same e (by simp [Slot.names])
    exact ⟨role.trans h.1, indexed.trans h.2⟩

theorem slotOk.congr {s t : State} {x : Slot} (h : slotOk s x) (same : ∀ e : EntryNo, x.names e = true →
      (t.entry e).role = (s.entry e).role ∧ (t.entry e).state.indexed = (s.entry e).state.indexed)
    (flight : x.isReserved = true → t.line.phase = s.line.phase ∧ t.line.frame.action = s.line.frame.action ∧
      t.line.frame.entry = s.line.frame.entry ∧ t.line.frame.tag = s.line.frame.tag) : slotOk t x := by
  cases hx : x.isReserved with
  | false => exact ((h.rests hx).congr same).ok
  | true =>
    cases x with
    | reserved e tag lease renewal =>
      obtain ⟨role, indexed⟩ := same e (by simp [Slot.names])
      obtain ⟨phase, action, entry, tags⟩ := flight rfl
      obtain ⟨h1, h2, h3, h4, h5, h6, h7, h8⟩ := h
      exact ⟨role.trans h1, indexed.trans h2, h3, h4, by rw [phase]; exact h5, action.trans h6, entry.trans h7,
        tags.trans h8⟩
    | _ => cases hx

/-- The reservation stands on through the answer (R69). -/
theorem slotOk.answering {s t : State} {x : Slot} (h : slotOk s x)
    (same : ∀ e : EntryNo, (t.entry e).role = (s.entry e).role ∧
      (t.entry e).state.indexed = (s.entry e).state.indexed) (phase : t.line.phase = .answering)
    (header : t.line.frame.action = s.line.frame.action ∧ t.line.frame.entry = s.line.frame.entry ∧
      t.line.frame.tag = s.line.frame.tag) : slotOk t x := by
  cases hx : x.isReserved with
  | false => exact ((h.rests hx).congr fun e _ => same e).ok
  | true =>
    cases x with
    | reserved e tag lease renewal =>
      obtain ⟨role, indexed⟩ := same e
      obtain ⟨action, entry, tags⟩ := header
      obtain ⟨h1, h2, h3, h4, _, h6, h7, h8⟩ := h
      exact ⟨role.trans h1, indexed.trans h2, h3, h4, .inr phase, action.trans h6, entry.trans h7, tags.trans h8⟩
    | _ => cases hx

/-- An entry that a slot in use names is an indexed SOURCE. -/
theorem slotOk.named {s : State} {x : Slot} (h : slotOk s x) {e : EntryNo} (names : x.names e = true) :
    (s.entry e).role = .source ∧ (s.entry e).state.indexed = true := by
  rcases Slot.names_cases names with ⟨_, _, _, rfl⟩ | ⟨_, _, rfl⟩ | rfl
  · exact ⟨h.1, h.2.1⟩
  · exact ⟨h.1, h.2.1⟩
  · exact h

/-! ## Without a CLAIM in flight -/

/-- The Claim Table while nothing is RESERVED. -/
structure ClaimsRest (s : State) : Prop where
  slots : ∀ k : SlotNo, slotRests s (s.claims.slot k)
  unique : ∀ (e : EntryNo) (j k : SlotNo),
    (s.claims.slot j).names e = true → (s.claims.slot k).names e = true → j = k
  lease : 10 ≤ s.claims.lease ∧ s.claims.lease ≤ 60000

theorem ClaimsRest.ok {s : State} (h : ClaimsRest s) (asking : s.line.phase = .space → s.line.frame.asking = false) :
    ClaimsOk s where
  slots k := (h.slots k).ok
  unique := h.unique
  lease := h.lease
  asking e phase waits := by simp [asking phase] at waits

theorem ClaimsRest.congr {s t : State} (h : ClaimsRest s) (claims : t.claims = s.claims) (same : SameClaimants s t) :
    ClaimsRest t where
  slots k := by rw [claims]; exact (h.slots k).congr fun e _ => same e
  unique := by rw [claims]; exact h.unique
  lease := by rw [claims]; exact h.lease

/-- Outside SPACE and ANSWERING nothing is RESERVED. -/
theorem ClaimsOk.rest {s : State} (ok : ClaimsOk s) (phase : s.line.phase ≠ .space ∧ s.line.phase ≠ .answering) :
    ClaimsRest s where
  slots k := by
    refine (ok.slots k).rests ?_
    cases h : s.claims.slot k with
    | reserved e tag lease renewal =>
      have := ok.slots k
      rw [h] at this
      obtain ⟨_, _, _, _, h5, _⟩ := this
      simp [phase] at h5
    | _ => rfl
  unique := ok.unique
  lease := ok.lease

theorem ClaimsOk.restQuiet {s : State} (ok : ClaimsOk s) (phase : s.line.phase.inFlight = false) : ClaimsRest s :=
  ok.rest ⟨fun h => by simp [h, Phase.inFlight] at phase, fun h => by simp [h, Phase.inFlight] at phase⟩

theorem ClaimsOk.congr {s t : State} (ok : ClaimsOk s) (claims : t.claims = s.claims) (same : SameClaimants s t)
    (phase : t.line.phase = s.line.phase) (frame : t.line.frame = s.line.frame) : ClaimsOk t where
  slots k := by
    rw [claims]
    exact (ok.slots k).congr (fun e _ => same e) fun _ => ⟨phase, by rw [frame], by rw [frame], by rw [frame]⟩
  unique := by rw [claims]; exact ok.unique
  lease := by rw [claims]; exact ok.lease
  asking e := by
    rw [phase, frame, (same e).1]
    exact ok.asking e

/-! ## One slot written -/

theorem ClaimTable.setSlot_unique {c : ClaimTable} (unique : ∀ (e : EntryNo) (j k : SlotNo),
      (c.slot j).names e = true → (c.slot k).names e = true → j = k) (k : SlotNo) (x : Slot)
    (only : ∀ (e : EntryNo) (j : SlotNo), x.names e = true → (c.slot j).names e = true → j = k) :
    ∀ (e : EntryNo) (i j : SlotNo), ((c.setSlot k x).slot i).names e = true →
      ((c.setSlot k x).slot j).names e = true → i = j := by
  intro e i j hi hj
  rw [ClaimTable.slot_setSlot] at hi hj
  split at hi <;> split at hj
  · next h1 h2 => exact h1.trans h2.symm
  · next h1 h2 => exact h1.trans (only e j hi hj).symm
  · next h1 h2 => exact (only e i hj hi).trans h2.symm
  · exact unique e i j hi hj

theorem ClaimsOk.setSlot {s : State} (ok : ClaimsOk s) (k : SlotNo) {x : Slot} (slot : slotOk s x)
    (only : ∀ (e : EntryNo) (j : SlotNo), x.names e = true → (s.claims.slot j).names e = true → j = k) :
    ClaimsOk (s.setSlot k x) where
  slots j := by
    rw [State.setSlot_claims, ClaimTable.slot_setSlot]
    split
    · exact slot
    · exact ok.slots j
  unique := ClaimTable.setSlot_unique ok.unique k x only
  lease := ok.lease
  asking := ok.asking

theorem ClaimsOk.free {s : State} (ok : ClaimsOk s) (k : SlotNo) : ClaimsOk (s.setSlot k .free) :=
  ok.setSlot k (x := .free) trivial (fun _ _ h => by cases h)

/-! ## One entry taken out of the table or into it -/

/-- An entry that no slot names afterwards changes; the slots that named it are FREE. -/
theorem ClaimsOk.changeOne {s t : State} (ok : ClaimsOk s) (e : EntryNo) (claims : t.claims = s.claims.freeClaim e)
    (other : ∀ d : EntryNo, d ≠ e → t.entry d = s.entry d) (phase : t.line.phase = s.line.phase)
    (frame : t.line.frame = s.line.frame) (unmarked : s.line.phase = .space → s.line.frame.entry ≠ some e) :
    ClaimsOk t where
  slots k := by
    rw [claims, ClaimTable.slot_freeClaim]
    split
    · trivial
    · next unnamed =>
      refine (ok.slots k).congr (fun d hd => ?_) fun _ => ⟨phase, by rw [frame], by rw [frame], by rw [frame]⟩
      have hne : d ≠ e := by rintro rfl; exact unnamed hd
      rw [other d hne]
      exact ⟨rfl, rfl⟩
  unique d j k hj hk := by
    rw [claims, ClaimTable.slot_freeClaim] at hj hk
    split at hj
    · cases hj
    · split at hk
      · cases hk
      · exact ok.unique d j k hj hk
  lease := by rw [claims]; exact ok.lease
  asking d hp ha hc he := by
    rw [phase] at hp
    rw [frame] at ha hc he
    have hne : d ≠ e := by rintro rfl; exact unmarked hp he
    rw [other d hne]
    exact ok.asking d hp ha hc he

/-- No slot names an entry that is not in the Handle Index. -/
theorem ClaimsOk.freeClaim_eq {s : State} (ok : ClaimsOk s) {e : EntryNo} (gone : (s.entry e).state.indexed = false) :
    s.claims.freeClaim e = s.claims := by
  have slot : ∀ k : SlotNo, (s.claims.freeClaim e).slot k = s.claims.slot k := fun k => by
    rw [ClaimTable.slot_freeClaim, if_neg]
    intro names
    have := ((ok.slots k).named names).2
    simp [gone] at this
  have : (s.claims.freeClaim e).slots = s.claims.slots := Vector.ext fun k hk => slot ⟨k, hk⟩
  exact congrArg (fun v => ({ s.claims with slots := v } : ClaimTable)) this

/-! ## The request for the answer (R69) -/

theorem State.answerRequest_claims {s : State} {e : EntryNo} {a : Action} {t : Tag} (h : a ≠ .claim) :
    (s.answerRequest e a t).claims = s.claims := by
  unfold State.answerRequest State.placePin
  dsimp only
  repeat' split
  all_goals first
    | exact absurd rfl h
    | rfl

/-- A request taken keeps the frame's header. -/
theorem State.serveRequest_header (s : State) :
    s.serveRequest.line.frame.action = s.line.frame.action ∧ s.serveRequest.line.frame.entry = s.line.frame.entry ∧
      s.serveRequest.line.frame.tag = s.line.frame.tag ∧ s.serveRequest.line.frame.segment = s.line.frame.segment := by
  unfold State.serveRequest State.answerRequest State.placePin State.decideClaim
  dsimp only
  repeat' split
  all_goals exact ⟨rfl, rfl, rfl, rfl⟩

/-- What the decision of a CLAIM makes of the slots (R69): nothing, or the reservation of the slot that holds the tag's
own claim, or of one where none names the entry. -/
theorem ClaimTable.decideClaim_slots (c : ClaimTable) (claimOk : Bool) (e : EntryNo) (t : Tag) :
    (c.decideClaim claimOk e t).2.2 = c ∨ t ≠ 0#4 ∧
      ((∃ (k : SlotNo) (lease : Nat) (d : EntryNo), c.slotOf e = some k ∧ c.slot k = .heldLine d t lease ∧
          (c.decideClaim claimOk e t).2.2 = c.setSlot k (.reserved e t lease true)) ∨
        ∃ k : SlotNo, c.slotOf e = none ∧
          (c.decideClaim claimOk e t).2.2 = c.setSlot k (.reserved e t 0 false)) := by
  unfold ClaimTable.decideClaim
  split
  · exact .inl rfl
  · next permitted =>
    have ht : t ≠ 0#4 := fun h => permitted (.inr h)
    split
    · next k named =>
      split
      · exact .inl rfl
      · next d u lease slot =>
        split
        · next same =>
          subst same
          exact .inr ⟨ht, .inl ⟨k, lease, d, named, slot, rfl⟩⟩
        · exact .inl rfl
      · split <;> exact .inl rfl
      · exact .inl rfl
    · next unnamed =>
      split
      · next k _ => exact .inr ⟨ht, .inr ⟨k, unnamed, rfl⟩⟩
      · exact .inl rfl

theorem State.decideClaim_claims (s : State) (e : EntryNo) (t : Tag) :
    (s.decideClaim e t).claims = (s.claims.decideClaim (s.entry e).permits.claimOk e t).2.2 := by
  unfold State.decideClaim
  dsimp only
  split <;> rfl

theorem State.decideClaim_table (s : State) (e : EntryNo) (t : Tag) : (s.decideClaim e t).table = s.table := by
  unfold State.decideClaim
  dsimp only
  split <;> rfl

theorem State.decideClaim_line (s : State) (e : EntryNo) (t : Tag) :
    (s.decideClaim e t).line = { s.line with frame := { s.line.frame with
      code := some (s.claims.decideClaim (s.entry e).permits.claimOk e t).1 } } := by
  unfold State.decideClaim
  dsimp only
  split <;> rfl

/-- Nothing the Claim Table's invariant speaks of has changed, and no request waits. -/
theorem ClaimsOk.taken {s t : State} (ok : ClaimsOk s) (claims : t.claims = s.claims)
    (entries : t.table.entries = s.table.entries) (phase : t.line.phase = s.line.phase)
    (header : t.line.frame.action = s.line.frame.action ∧ t.line.frame.entry = s.line.frame.entry ∧
      t.line.frame.tag = s.line.frame.tag) (asking : t.line.frame.asking = false) : ClaimsOk t where
  slots k := by
    rw [claims]
    exact (ok.slots k).congr (fun d _ => SameClaimants.of_entries entries d) fun _ => ⟨phase, header⟩
  unique := by rw [claims]; exact ok.unique
  lease := by rw [claims]; exact ok.lease
  asking d _ waits := by simp [asking] at waits

/-- The decision of a CLAIM leaves the table, or reserves a slot for the frame in flight (R69). -/
theorem ClaimsOk.decideClaim {s : State} (ok : ClaimsOk s) {e : EntryNo} {t : Tag} (role : (s.entry e).role = .source)
    (indexed : (s.entry e).state.indexed = true) (phase : s.line.phase = .space) (asking : s.line.frame.asking = false)
    (action : s.line.frame.action = some .claim) (entry : s.line.frame.entry = some e)
    (tag : s.line.frame.tag = some t) : ClaimsOk (s.decideClaim e t) := by
  have decided : ∀ {r : State}, ClaimsOk r → (s.decideClaim e t).claims = r.claims → r.table = s.table →
      r.line = s.line → ClaimsOk (s.decideClaim e t) := fun {r} okr claims table line => by
    refine okr.taken claims (by rw [State.decideClaim_table, table]) ?_ ?_ ?_
    · rw [State.decideClaim_line, line]
    · rw [State.decideClaim_line, line]; exact ⟨rfl, rfl, rfl⟩
    · rw [State.decideClaim_line]; exact asking
  have claims := s.decideClaim_claims e t
  have reserved : ∀ (k : SlotNo) (lease : Nat) (renewal : Bool), t ≠ 0#4 → lease ≤ 60000 →
      (∀ j : SlotNo, (s.claims.slot j).names e = true → j = k) → ClaimsOk (s.setSlot k (.reserved e t lease renewal)) :=
    fun k lease renewal ht bound only =>
      ok.setSlot k ⟨role, indexed, ht, bound, .inl phase, action, entry, tag⟩ fun d j hd hj => by
        obtain rfl : e = d := of_decide_eq_true hd
        exact only j hj
  rcases s.claims.decideClaim_slots (s.entry e).permits.claimOk e t with
    h | ⟨ht, ⟨k, lease, d, named, slot, h⟩ | ⟨k, unnamed, h⟩⟩
  · exact decided ok (claims.trans h) rfl rfl
  · have names := (ClaimTable.slotOf_eq_some (ok.unique e) k).1 named
    have held := ok.slots k
    rw [slot] at held
    exact decided (reserved k lease true ht held.2.2.2.2 fun j hj => ok.unique e j k hj names) (claims.trans h) rfl rfl
  · refine decided (reserved k 0 false ht (by omega) fun j hj => ?_) (claims.trans h) rfl rfl
    simp [(ClaimTable.slotOf_eq_none _ _).1 unnamed j] at hj

theorem ClaimsOk.serveRequest {s : State} (ok : ClaimsOk s) (flight : FlightOk s) : ClaimsOk s.serveRequest := by
  by_cases waits : s.line.phase = .space ∧ s.line.frame.asking = true
  · obtain ⟨phase, asking⟩ := waits
    obtain ⟨marked, mark⟩ := flight.marked (by rw [phase]; rfl)
    obtain ⟨e, entry⟩ := Option.isSome_iff_exists.1 marked
    have indexed := flight.standing e (mark.trans entry)
    have taken : ClaimsOk (s.setAsking false) := {
      slots := fun k => (ok.slots k).congr (fun _ _ => ⟨rfl, rfl⟩) fun _ => ⟨rfl, rfl, rfl, rfl⟩
      unique := ok.unique
      lease := ok.lease
      asking := fun _ _ h => by cases h }
    have other : ∀ (a : Action) (t : Tag), s.line.frame.entry = some e → s.line.frame.action = some a →
        s.line.frame.tag = some t → a ≠ .claim → ClaimsOk s.serveRequest := fun a t entry action tag h => by
      have served : s.serveRequest = (s.setAsking false).answerRequest e a t := by
        simp only [State.serveRequest, phase, asking, and_self, if_true, entry, action, tag]
      have header := s.serveRequest_header
      refine ok.taken ?_ s.serveRequest_entries (by rw [State.serveRequest_line]) ⟨header.1, header.2.1, header.2.2.1⟩ ?_
      · rw [served, State.answerRequest_claims h]
        rfl
      · exact State.serveRequest_asking fun _ => phase
    cases action : s.line.frame.action with
    | none =>
      have served : s.serveRequest = s.setAsking false := by simp [State.serveRequest, phase, asking, action]
      rw [served]
      exact taken
    | some a =>
      cases tag : s.line.frame.tag with
      | none =>
        have served : s.serveRequest = s.setAsking false := by simp [State.serveRequest, phase, asking, tag]
        rw [served]
        exact taken
      | some t =>
        by_cases h : a = .claim
        · subst h
          have served : s.serveRequest = (s.setAsking false).decideClaim e t := by
            simp only [State.serveRequest, phase, asking, and_self, if_true, entry, action, tag]
            rfl
          rw [served]
          exact taken.decideClaim (ok.asking e phase asking action entry) indexed phase rfl action entry tag
        · exact other a t entry action tag h
  · rw [State.serveRequest, if_neg waits]
    exact ok

/-! ## The end of a frame (R70, R71, R76, R103) -/

/-- The Claim Table once the end of a frame has been reported to it: a reservation is left only where the frame's entry is
RETIRING, and about to be torn down. -/
structure ClaimsLanding (s : State) (e : EntryNo) : Prop where
  slots : ∀ k : SlotNo, slotRests s (s.claims.slot k) ∨
    (s.claims.slot k).names e = true ∧ (s.entry e).state = .retiring
  unique : ∀ (d : EntryNo) (j k : SlotNo),
    (s.claims.slot j).names d = true → (s.claims.slot k).names d = true → j = k
  lease : 10 ≤ s.claims.lease ∧ s.claims.lease ≤ 60000

theorem ClaimsRest.landing {s : State} (h : ClaimsRest s) (e : EntryNo) : ClaimsLanding s e :=
  ⟨fun k => .inl (h.slots k), h.unique, h.lease⟩

theorem ClaimsLanding.rest {s : State} {e : EntryNo} (h : ClaimsLanding s e) (state : (s.entry e).state ≠ .retiring) :
    ClaimsRest s :=
  ⟨fun k => (h.slots k).resolve_right fun r => state r.2, h.unique, h.lease⟩

theorem ClaimsRest.setSlot {s t : State} {k : SlotNo} {x : Slot} (claims : t.claims = s.claims.setSlot k x)
    (table : t.table = s.table) (slot : slotRests s x)
    (others : ∀ j : SlotNo, j ≠ k → slotRests s (s.claims.slot j))
    (unique : ∀ (e : EntryNo) (i j : SlotNo),
      (s.claims.slot i).names e = true → (s.claims.slot j).names e = true → i = j)
    (only : ∀ (e : EntryNo) (j : SlotNo), x.names e = true → (s.claims.slot j).names e = true → j = k)
    (lease : 10 ≤ s.claims.lease ∧ s.claims.lease ≤ 60000) : ClaimsRest t where
  slots j := by
    rw [claims, ClaimTable.slot_setSlot]
    have same : SameClaimants s t := .of_entries (by rw [table])
    split
    · exact slot.congr fun e _ => same e
    · next h => exact (others j h).congr fun e _ => same e
  unique := by rw [claims]; exact ClaimTable.setSlot_unique unique k x only
  lease := by rw [claims]; exact lease

/-- A RESERVED slot names the entry of the frame in flight, for its CLAIM. -/
theorem ClaimsOk.reserved_names {s : State} (ok : ClaimsOk s) {e : EntryNo} (entry : s.line.frame.entry = some e)
    {k : SlotNo} (reserved : (s.claims.slot k).isReserved = true) :
    ∃ (t : Tag) (lease : Nat) (renewal : Bool), s.claims.slot k = .reserved e t lease renewal ∧ t ≠ 0#4 ∧
      (s.entry e).role = .source ∧ (s.entry e).state.indexed = true ∧ s.line.frame.action = some .claim := by
  have slot := ok.slots k
  cases h : s.claims.slot k with
  | reserved d t lease renewal =>
    rw [h] at slot
    obtain ⟨role, indexed, ht, _, _, action, flight, _⟩ := slot
    obtain rfl : e = d := Option.some.inj (entry.symm.trans flight)
    exact ⟨t, lease, renewal, rfl, ht, role, indexed, action⟩
  | _ => simp [h, Slot.isReserved] at reserved

theorem ClaimsOk.claimReported {s : State} (ok : ClaimsOk s) {e : EntryNo} (entry : s.line.frame.entry = some e)
    (answered : Bool) : ClaimsLanding (if answered then s.claimAnswered else s.claimFailed) e := by
  cases hr : s.claims.reservedSlot with
  | none =>
    have rest : ClaimsRest s :=
      ⟨fun k => (ok.slots k).rests ((ClaimTable.reservedSlot_eq_none _).1 hr k), ok.unique, ok.lease⟩
    have same : (if answered then s.claimAnswered else s.claimFailed) = s := by
      cases answered <;> simp [State.claimAnswered, State.claimFailed, hr]
    rw [same]
    exact rest.landing e
  | some k =>
    obtain ⟨t, lease, renewal, slot, ht, role, indexed, _⟩ :=
      ok.reserved_names entry (ClaimTable.reservedSlot_isReserved hr)
    have names : (s.claims.slot k).names e = true := by simp [slot, Slot.names]
    have others : ∀ j : SlotNo, j ≠ k → slotRests s (s.claims.slot j) := fun j hj => by
      refine (ok.slots j).rests ?_
      by_contra h
      obtain ⟨_, _, _, reserved, _⟩ := ok.reserved_names entry (by simpa using h)
      exact hj (ok.unique e j k (by simp [reserved, Slot.names]) names)
    have held : slotRests s (.heldLine e t s.claims.lease) :=
      ⟨role, indexed, ht, Nat.le_trans (by decide) ok.lease.1, ok.lease.2⟩
    have only : ∀ (d : EntryNo) (j : SlotNo), (Slot.heldLine e t s.claims.lease).names d = true →
        (s.claims.slot j).names d = true → j = k := fun d j hd hj => by
      obtain rfl : e = d := of_decide_eq_true hd
      exact ok.unique e j k hj names
    have frees : ∀ {r : State}, r.claims = s.claims.setSlot k .free → r.table = s.table → ClaimsLanding r e :=
      fun claims table => ClaimsRest.landing
        (ClaimsRest.setSlot claims table trivial others ok.unique (fun _ _ h => by cases h) ok.lease) e
    have holds : ∀ {r : State}, r.claims = s.claims.setSlot k (.heldLine e t s.claims.lease) → r.table = s.table →
        ClaimsLanding r e := fun claims table =>
      ClaimsRest.landing (ClaimsRest.setSlot claims table held others ok.unique only ok.lease) e
    cases answered with
    | true =>
      simp only [if_true, State.claimAnswered, hr, slot]
      split
      · next retiring =>
        refine ⟨fun j => ?_, ok.unique, ok.lease⟩
        by_cases hj : j = k
        · subst hj; exact .inr ⟨names, retiring⟩
        · exact .inl (others j hj)
      · split
        · exact holds rfl rfl
        · exact holds rfl rfl
    | false =>
      simp only [Bool.false_eq_true, if_false, State.claimFailed, hr, slot]
      split
      · exact frees rfl rfl
      · exact frees rfl rfl

theorem ClaimsOk.reportToClaims {s : State} (ok : ClaimsOk s) {e : EntryNo} (entry : s.line.frame.entry = some e)
    (how : FrameEnd) : ClaimsLanding (s.reportToClaims how e) e := by
  have rest : s.line.frame.action ≠ some .claim → ClaimsRest s := fun action =>
    ⟨fun k => (ok.slots k).rests (by
      by_contra h
      obtain ⟨_, _, _, _, _, _, _, claim⟩ := ok.reserved_names entry (k := k) (by simpa using h)
      exact action claim), ok.unique, ok.lease⟩
  unfold State.reportToClaims
  split
  · split
    · exact ok.claimReported entry true
    · exact ok.claimReported entry false
  · next action =>
    have rest := rest (by simp [action])
    split
    · unfold State.releaseAnswered
      split
      · exact rest.landing e
      · next k _ =>
        split
        · split
          · refine ClaimsRest.landing (ClaimsRest.setSlot (s := s) (k := k) (x := .free) ?_ ?_ trivial
              (fun j _ => rest.slots j) ok.unique (fun _ _ h => by cases h) ok.lease) e
            · rfl
            · rfl
          · exact rest.landing e
        all_goals exact rest.landing e
    · exact rest.landing e
  all_goals
    next action => exact (rest (by simp [action])).landing e

theorem State.teardown_claims (s : State) (e : EntryNo) : (s.teardown e).claims = s.claims.freeClaim e := by
  rw [State.teardown_eq]

/-- A torn-down entry leaves the Claim Table at rest (R22). -/
theorem ClaimsLanding.teardown {s t : State} {e : EntryNo} (h : ClaimsLanding s e)
    (claims : t.claims = s.claims.freeClaim e) (other : ∀ d : EntryNo, d ≠ e → t.entry d = s.entry d) :
    ClaimsRest t where
  slots k := by
    rw [claims, ClaimTable.slot_freeClaim]
    split
    · trivial
    · next unnamed =>
      refine ((h.slots k).resolve_right fun r => unnamed r.1).congr fun d hd => ?_
      have hne : d ≠ e := by rintro rfl; exact unnamed hd
      rw [other d hne]
      exact ⟨rfl, rfl⟩
  unique d j k hj hk := by
    rw [claims, ClaimTable.slot_freeClaim] at hj hk
    split at hj
    · cases hj
    · split at hk
      · cases hk
      · exact h.unique d j k hj hk
  lease := by rw [claims]; exact h.lease

theorem ClaimsLanding.report {s t : State} {how : FrameEnd} {e : EntryNo} (h : ClaimsLanding s e)
    (landing : Landing s e) (report : TableReport s how e t) : ClaimsRest t := by
  have renewed : ∀ {x : Entry} {r : State}, (s.entry e).state ≠ .retiring → x.role = (s.entry e).role →
      x.state = .live → r.table.entries = (s.setEntry e x).table.entries → r.claims = s.claims → ClaimsRest r :=
    fun state role live entries claims => (h.rest state).congr claims
      (.setEntry entries role (by rw [live, landing.standing]; rfl))
  cases report with
  | vacates =>
    refine h.teardown (by rw [State.vacate_claims, State.teardown_claims]) fun d hd => ?_
    rw [State.entry_vacate_ne _ hd, State.teardown_entry_ne s hd]
  | nothing state => exact h.rest state
  | posts c state => exact (h.rest state).congr rfl (.of_entries rfl)
  | overwrites v a b cells data state =>
    exact renewed (x := (s.entry e).renewed v a b cells) state rfl rfl rfl rfl
  | makes v a b cells p data state =>
    exact renewed (x := (s.entry e).renewed v a b cells) state rfl rfl rfl rfl
  | opens v cells p data state =>
    exact (h.rest state).congr rfl (.setEntry (e := e) (x := { s.entry e with staged := some cells }) rfl rfl rfl)
  | goesOn q data state => exact (h.rest state).congr rfl (.of_entries rfl)
  | completes q data b state =>
    rw [State.completeAssembly_eq]
    exact renewed (x := { (s.entry e).renewed (tagVersion b) (tagStale b) (tagClaimed b)
      ((s.entry e).staged.getD []) with staged := none }) state rfl rfl rfl rfl
  | breaks state => exact (h.rest state).congr s.breakSequence_claims s.breakSequence_records.claimants
  | serves state => exact (h.rest state).congr rfl (.of_entries rfl)
  | served state => exact (h.rest state).congr s.releasePin_claims s.releasePin_records.claimants
  | answerFails state =>
    exact (h.rest state).congr (by rw [State.breakSequence_claims, State.releasePin_claims])
      (s.releasePin_records.trans s.releasePin.breakSequence_records).claimants
  | ends =>
    refine h.teardown ?_ fun d hd => State.endEntry_entry_ne s hd
    rw [State.endEntry_eq, State.post_claims, State.setPosting_claims, State.setEntry_claims, State.teardown_claims]

theorem ClaimsOk.frameEnd {s : State} (ok : ClaimsOk s) (flight : FlightOk s) (phase : s.line.phase.inFlight = true)
    (how : FrameEnd) : ClaimsRest (s.frameEnd how) := by
  have served := ok.serveRequest flight
  have phase : s.serveRequest.line.phase.inFlight = true := by rw [State.serveRequest_line]; exact phase
  obtain ⟨e, entry⟩ := Option.isSome_iff_exists.1 (flight.serveRequest.marked phase).1
  have reported := served.reportToClaims entry how
  have dropped : ClaimsLanding ((s.serveRequest.reportToClaims how e).setInFlight none) e :=
    ⟨reported.slots, reported.unique, reported.lease⟩
  exact dropped.report (flight.serveRequest.landing phase entry how) (State.reportEnd_report entry how)

/-! ## The shared operations -/

theorem ClaimsRest.breakSequence {s : State} (h : ClaimsRest s) : ClaimsRest s.breakSequence :=
  h.congr s.breakSequence_claims s.breakSequence_records.claimants

theorem ClaimsRest.leaveListen {s : State} (h : ClaimsRest s) (m : LineMode) : ClaimsOk (s.leaveListen m) :=
  (h.congr (s.leaveListen_claims m) (s.leaveListen_records m).claimants).ok (by rw [State.leaveListen_line]; nofun)

theorem ClaimsRest.enterQuiet {s : State} (h : ClaimsRest s) {p : Phase} (quiet : p.quiet = true) :
    ClaimsOk (s.enterQuiet p) := by
  have stays : ClaimsRest { s with line := s.line.quieted p } := h.congr rfl (.of_entries rfl)
  have phase : p ≠ .space := by
    rintro rfl
    cases quiet
  exact State.enterQuiet_keeps (I := ClaimsOk) (stays.ok fun hp => absurd hp phase) fun _ _ => stays.leaveListen _

theorem ClaimsRest.newFrame {s : State} (h : ClaimsRest s) : ClaimsOk s.newFrame :=
  (h.congr (t := s.newFrame) rfl (.of_entries rfl)).ok nofun

theorem ClaimsRest.postFrame {s : State} (h : ClaimsRest s) (c : Cause) : ClaimsRest (s.postFrame c) := by
  unfold State.postFrame
  split
  · exact h
  · exact h.congr rfl (.of_entries rfl)

theorem ClaimsRest.postAt {s : State} (h : ClaimsRest s) (e : Option EntryNo) (c : Cause) :
    ClaimsRest (s.postAt e c) := by
  unfold State.postAt
  split
  · exact h
  · exact h.congr rfl (.of_entries rfl)

/-! ## The decode of a header (R105) -/

/-- Only a SOURCE answers a CLAIM (R106). -/
theorem choosePath_claim_source {x : Found} {t : Tag} {continuation : Bool} {d e : EntryNo} {n : Nat}
    (h : choosePath (some d) (some x) .claim t continuation = .answer e n) : d = e ∧ x.role = .source := by
  simp only [choosePath] at h
  split at h
  · cases h
  · cases hr : x.role with
    | source =>
      simp only [hr] at h
      cases h
      exact ⟨rfl, rfl⟩
    | mirror => simp [hr] at h

theorem ClaimsOk.sendRequest {s : State} (ok : ClaimsOk s) (flight : FlightOk s)
    (source : ∀ e : EntryNo, s.line.frame.action = some .claim → s.line.frame.entry = some e →
      (s.entry e).role = .source) : ClaimsOk s.sendRequest := by
  have asks : ∀ n : Nat, ClaimsOk { s.setAsking true with requestCount := n } ∧
      FlightOk { s.setAsking true with requestCount := n } := fun n =>
    ⟨⟨fun k => (ok.slots k).congr (fun _ _ => ⟨rfl, rfl⟩) fun _ => ⟨rfl, rfl, rfl, rfl⟩, ok.unique, ok.lease,
      fun e _ _ action entry => source e action entry⟩, flight.congr (.kept rfl rfl rfl) rfl rfl rfl rfl⟩
  unfold State.sendRequest
  dsimp only
  split
  · split
    · exact (asks _).1
    · exact (asks _).1.serveRequest (asks _).2
  · exact (asks s.requestCount).1.serveRequest (asks s.requestCount).2

theorem ClaimsOk.enterSpace {s : State} (ok : ClaimsOk s) (flight : FlightOk s) (e : EntryNo) (a : Action) (t : Tag)
    (asking : s.line.frame.asking = false)
    (source : ∀ d : EntryNo, s.line.frame.action = some .claim → s.line.frame.entry = some d →
      (s.entry d).role = .source) : ClaimsOk (s.enterSpace e a t) := by
  unfold State.enterSpace
  split
  · unfold State.decideRetire
    dsimp only
    split
    · exact ok.taken rfl rfl rfl ⟨rfl, rfl, rfl⟩ asking
    · exact ok.taken rfl rfl rfl ⟨rfl, rfl, rfl⟩ asking
  all_goals exact ok.sendRequest flight source

theorem State.met_claims (s : State) (h : Handle) (a : Action) (t : Tag) : (s.met h a t).claims = s.claims := by
  show (s.meetSequence (s.line.isContinuation h a t)).claims = s.claims
  unfold State.meetSequence
  split <;> simp

theorem ClaimsOk.decodeAction {s : State} (ok : ClaimsOk s) (flight : FlightOk s) (mode : s.line.mode = .listen)
    (phase : s.line.phase = .header) (h : Handle) (a : Action) (t : Tag) : ClaimsOk (s.decodeAction h a t) := by
  have met : ClaimsRest (s.met h a t) :=
    (ok.restQuiet (by rw [phase]; rfl)).congr (s.met_claims h a t) (s.met_records h a t).claimants
  have started : ∀ (p : Phase) (e : EntryNo) (n : Nat),
      ClaimsRest (((s.met h a t).startFrame p e n).postAt (s.brokenAt h a t) .segBroken) := fun p e n =>
    ClaimsRest.postAt (s := (s.met h a t).startFrame p e n) (met.congr rfl (.of_entries rfl)) _ _
  generalize out : s.decodeAction h a t = u
  have decoded := s.decodeAction_decoded h a t
  rw [out] at decoded
  cases decoded with
  | skips path => exact (met.postAt _ _).enterQuiet rfl
  | skipsPosting e c entry path =>
    exact ClaimsRest.enterQuiet (s := ((s.met h a t).postAt (s.brokenAt h a t) .segBroken).post e c)
      ((met.postAt _ _).congr rfl (.of_entries rfl)) rfl
  | answers e n entry path =>
    have asking : (((s.met h a t).startFrame .space e n).postAt (s.brokenAt h a t) .segBroken).line.frame.asking = false :=
      by rw [State.postAt_line]; rfl
    refine ((started .space e n).ok fun _ => asking).enterSpace
      (flight.started mode phase entry (choosePath_working (.inl path)) rfl n) e a t asking fun d claim same => ?_
    rw [State.postAt_line] at claim same
    obtain rfl : a = .claim := Option.some.inj claim
    obtain rfl : e = d := Option.some.inj (entry.symm.trans same)
    rw [State.entry, State.postAt_table]
    exact (choosePath_claim_source path).2
  | receives e n entry path =>
    have rest : ClaimsRest (((s.met h a t).startFrame .receiving e n).postAt (s.brokenAt h a t)
      .segBroken).awaitResponse := (started .receiving e n).congr rfl (.of_entries rfl)
    refine rest.ok fun phase => ?_
    have receiving : (((s.met h a t).startFrame .receiving e n).postAt (s.brokenAt h a t)
        .segBroken).awaitResponse.line.phase = .receiving := by
      show (((s.met h a t).startFrame .receiving e n).postAt (s.brokenAt h a t) .segBroken).line.phase = .receiving
      rw [State.postAt_line]
      rfl
    cases receiving.symm.trans phase

/-! ## The effects -/

theorem ClaimTable.setSlot_free_congr {s t : State} (ok : ClaimsOk s) {k : SlotNo}
    (claims : t.claims = s.claims.setSlot k .free) (table : t.table = s.table) (line : t.line = s.line) : ClaimsOk t :=
  (ok.free k).congr claims (.of_entries (by rw [table]; rfl)) (by rw [line]; rfl) (by rw [line]; rfl)

theorem ClaimsRest.reset {t : State} (slots : t.claims.slots = ClaimTable.noClaims)
    (lease : 10 ≤ t.claims.lease ∧ t.claims.lease ≤ 60000) : ClaimsRest t := by
  have slot : ∀ k : SlotNo, t.claims.slot k = .free := fun k => by
    simp [ClaimTable.slot, slots, ClaimTable.noClaims]
  exact ⟨fun k => by rw [slot]; trivial, fun e j k hj => (by rw [slot] at hj; cases hj), lease⟩

theorem ClaimsRest.default {t : State} (slots : t.claims.slots = ClaimTable.noClaims)
    (lease : t.claims.lease = Config.defaultLease) : ClaimsRest t := .reset slots (by rw [lease]; decide)

theorem ClaimTable.slot_ticked (c : ClaimTable) (k : SlotNo) :
    ({ c with slots := c.slots.map Slot.ticked } : ClaimTable).slot k = (c.slot k).ticked := by
  simp [ClaimTable.slot]

theorem Slot.names_of_ticked {x : Slot} {e : EntryNo} (h : x.ticked.names e = true) : x.names e = true := by
  cases x with
  | heldLine d t lease =>
    simp only [Slot.ticked] at h
    split at h
    · cases h
    · exact h
  | _ => exact h

theorem slotOk.ticked {s : State} {x : Slot} (h : slotOk s x) : slotOk s x.ticked := by
  cases x with
  | heldLine e t lease =>
    simp only [Slot.ticked]
    split
    · trivial
    · next running =>
      obtain ⟨role, indexed, tag, _, upper⟩ := h
      exact ⟨role, indexed, tag, by omega, by omega⟩
  | _ => exact h

theorem Entry.ticked_role (x : Entry) : x.ticked.role = x.role := by
  unfold Entry.ticked
  split <;> rfl

theorem State.counted_claimants (s : State) : SameClaimants s s.counted := fun e => by
  have entry : s.counted.entry e = (s.entry e).ticked := s.table.ticked_entry e
  rw [entry]
  exact ⟨(s.entry e).ticked_role, (s.entry e).ticked_kin.indexed⟩

theorem ClaimsOk.counted {s : State} (ok : ClaimsOk s) : ClaimsOk s.counted := by
  have line : s.counted.line.phase = s.line.phase ∧ s.counted.line.frame = s.line.frame := by
    simp only [State.counted, LineUnit.idleTicked_eq, and_self]
  have slot : ∀ k : SlotNo, s.counted.claims.slot k = (s.claims.slot k).ticked := fun k => s.claims.slot_ticked k
  refine ⟨fun k => ?_, fun e j k hj hk => ?_, ok.lease, fun e phase asking action entry => ?_⟩
  · rw [slot]
    exact (ok.slots k).ticked.congr (fun e _ => s.counted_claimants e)
      fun _ => ⟨line.1, by rw [line.2], by rw [line.2], by rw [line.2]⟩
  · rw [slot] at hj hk
    exact ok.unique e j k (Slot.names_of_ticked hj) (Slot.names_of_ticked hk)
  · rw [line.1] at phase
    rw [line.2] at asking action entry
    rw [(s.counted_claimants e).1]
    exact ok.asking e phase asking action entry

theorem ClaimsOk.tick {s : State} (ok : ClaimsOk s) : ClaimsOk s.tick := by
  have counted := ok.counted
  rw [State.tick_eq]
  split
  · unfold State.idleExpired
    split
    · next quiet =>
      have rest := counted.restQuiet (Phase.not_inFlight_of_quiet quiet)
      refine ClaimsRest.ok (rest.congr ?_ ?_) nofun
      · exact s.counted.closeSequence_claims
      · exact s.counted.closeSequence_records.claimants
    · exact counted.congr rfl (.of_entries rfl) rfl rfl
  · exact counted.congr rfl (.of_entries rfl) rfl rfl

theorem LineEffect.phase {l m : LineUnit} (effect : LineEffect l m) :
    m.phase = l.phase ∨ l.phase.inFlight = false ∧ m.phase.inFlight = false := by
  cases effect with
  | runStarts _ phase => exact .inr ⟨by rw [phase]; rfl, rfl⟩
  | breakEnds _ phase => exact .inr ⟨by rw [phase]; rfl, rfl⟩
  | _ => exact .inl rfl

theorem ClaimsOk.hostEffect {s t : State} (ok : ClaimsOk s) (flight : FlightOk s) (effect : HostEffect s t) :
    ClaimsOk t := by
  have done : ∀ {r : State} (status : Status) (data : List Byte), ClaimsOk r → ClaimsOk (r.complete status data) :=
    fun status data h => h.congr rfl (.of_entries rfl) rfl rfl
  have rest : s.line.mode ≠ .listen → ClaimsRest s := fun mode => by
    refine ok.restQuiet ?_
    by_contra h
    exact mode (flight.listening (by simpa using h))
  have unmarked : ∀ {e : EntryNo}, s.table.inFlight ≠ some e → s.line.phase = .space → s.line.frame.entry ≠ some e :=
    fun mark phase entry => mark ((flight.marked (by rw [phase]; rfl)).2.trans entry)
  have standing : ∀ {e : EntryNo}, (s.entry e).state.indexed = false → s.table.inFlight ≠ some e := fun gone mark => by
    simp [flight.standing _ mark] at gone
  cases effect with
  | replies status data _ _ => exact done _ _ ok
  | configures r holdTb idle lease range _ =>
    simp only [configureInRange, decide_eq_true_eq] at range
    exact ⟨fun k => (ok.slots k).congr (fun _ _ => ⟨rfl, rfl⟩) fun _ => ⟨rfl, rfl, rfl, rfl⟩, ok.unique, range.2.2,
      ok.asking⟩
  | leaves m _ phase => exact done _ _ ((ok.restQuiet phase).leaveListen m)
  | waits w _ => exact ok.congr rfl (.of_entries rfl) rfl rfl
  | abandons phase =>
    exact done _ _ (ClaimsRest.leaveListen (s := (s.frameEnd .abandoned).setCondition .abandoned)
      ((ok.frameEnd flight phase .abandoned).congr rfl (.of_entries rfl)) .offline)
  | collides phase => exact done _ _ (((ok.frameEnd flight phase .collided).postFrame .collided).leaveListen .offline)
  | enters mode =>
    exact done _ _ (((rest mode).congr (t := s.enterListen .waiting) rfl (.of_entries rfl)).ok nofun)
  | quits m _ mode => exact done _ _ (((rest mode).congr (t := s.quitListen m) rfl (.of_entries rfl)).ok nofun)
  | rouses mode =>
    refine ClaimsRest.ok ((rest (by simp [mode])).congr rfl ?_) nofun
    exact .of_entries rfl
  | defines e handle role len permits limit mask _ _ vacant =>
    have gone : (s.entry e).state.indexed = false := by
      have state : (s.entry e).state = .vacant := ((TableController.firstVacant_eq_some _ _).1 vacant).1
      rw [state]
      rfl
    refine ok.changeOne e (ok.freeClaim_eq gone).symm (fun d hd => ?_) rfl rfl (unmarked (standing gone))
    exact State.entry_setEntry_ne s _ hd
  | amends e selector permits mask limit _ _ =>
    rw [State.amendEntry_eq]
    exact done _ _ (ok.congr rfl (.setEntry (e := e) (x := (s.entry e).amend selector permits limit) rfl rfl rfl) rfl rfl)
  | stagesInPlace e cells o data _ => exact done _ _ (ok.congr rfl (.of_entries rfl) rfl rfl)
  | stages e cells p o data _ _ _ _ =>
    exact done _ _ (ok.congr rfl (.setEntry (e := e) (x := { s.entry e with staged := some cells }) rfl rfl rfl) rfl rfl)
  | commits e cells working _ _ =>
    obtain ⟨_, held, entries⟩ := s.commitEntry_table e cells
    refine done _ _ (ok.congr ?_ (.setEntry entries rfl (EntryState.indexed_of_working working).symm) ?_ ?_)
    · rw [State.commitEntry_frame]
    · rw [State.commitEntry_line]
    · rw [State.commitEntry_line]
  | discards e _ _ =>
    rw [State.freeStaged_eq]
    exact done _ _ (ok.congr rfl (.setEntry (e := e) (x := { s.entry e with staged := none }) rfl rfl rfl) rfl rfl)
  | marksRetiring e working mark =>
    exact ok.congr rfl (.setEntry (e := e) (x := { s.entry e with state := .retiring }) rfl rfl
      (EntryState.indexed_of_working working).symm) rfl rfl
  | tearsDown e _ mark =>
    refine ok.changeOne e ?_ (fun d hd => ?_) ?_ ?_ (unmarked mark)
    · rw [State.complete_claims, State.vacate_claims, State.clear_claims, State.teardown_claims]
    · rw [State.complete_entry, State.entry_vacate_ne _ hd, State.clear_entry, State.teardown_entry_ne s hd]
    · rw [State.complete_line, State.vacate_line, State.clear_line, (s.teardown_reports e).line]
    · rw [State.complete_line, State.vacate_line, State.clear_line, (s.teardown_reports e).line]
  | vacates e state =>
    have gone : (s.entry e).state.indexed = false := by rw [state]; rfl
    exact ok.changeOne e (ok.freeClaim_eq gone).symm (fun d hd => State.entry_vacate_ne _ hd) rfl rfl
      (unmarked (standing gone))
  | holds e k working role unclaimed =>
    refine done _ _ (ok.setSlot k (x := .heldHost e) ⟨role, EntryState.indexed_of_working working⟩ fun d j hd hj => ?_)
    obtain rfl : e = d := of_decide_eq_true hd
    simp [(ClaimTable.slotOf_eq_none _ _).1 unclaimed j] at hj
  | frees k => exact done _ _ (ok.free k)
  | freesPosting k e => exact ClaimTable.setSlot_free_congr ok (k := k) rfl rfl rfl
  | takes e rest list posting => exact ok.congr rfl (.of_entries rfl) rfl rfl
  | takesEnding e rest list posting => exact ok.congr rfl (.of_entries rfl) rfl rfl
  | emptiesConditions => exact ok.congr rfl (.of_entries rfl) rfl rfl
  | restarts => exact (ClaimsRest.reset (t := s.finishRestart) rfl ok.lease).ok nofun

theorem ClaimsOk.partEffect {s t : State} (ok : ClaimsOk s) (flight : FlightOk s) {draw : Drawn} (effect : PartEffect s draw t) :
    ClaimsOk t := by
  have landed : ∀ b : Byte, ClaimsOk (s.landByte b) := fun b => ok.congr rfl (.of_entries rfl) rfl rfl
  have conditioned : ∀ c : LineCondition, ClaimsOk (s.setCondition c) := fun c =>
    ok.congr rfl (.of_entries rfl) rfl rfl
  have inFlight : s.line.phase = .space ∨ s.line.phase = .answering → s.line.phase.inFlight = true := by
    rintro (h | h) <;> rw [h] <;> rfl
  have receives : s.line.phase = .receiving → s.line.phase.inFlight = true := fun h => by rw [h]; rfl
  have header : s.line.phase = .header → s.line.phase.inFlight = false := fun h => by rw [h]; rfl
  have quiet : ∀ {m : LineMode}, s.line.mode = m → m ≠ .listen → ClaimsRest s := fun hm h => by
    refine ok.restQuiet ?_
    by_contra hp
    exact h (hm.symm.trans (flight.listening (by simpa using hp)))
  cases effect with
  | nothing => exact ok
  | port h effect => exact ok.congr rfl (.of_entries rfl) rfl rfl
  | line l effect =>
    rcases effect.phase with phase | ⟨before, after⟩
    · exact ok.congr rfl (.of_entries rfl) phase effect.frame.2
    · exact ((ok.restQuiet before).congr (t := { s with line := l }) rfl (.of_entries rfl)).ok
        fun h => absurd h (Phase.ne_space_of_not_inFlight after)
  | answerCompletes _ phase => exact (ok.frameEnd flight (inFlight (.inr phase)) .completed).enterQuiet rfl
  | collides _ phase => exact ((ok.frameEnd flight (inFlight phase) .collided).postFrame .collided).enterQuiet rfl
  | collidesInBreak _ phase => exact ((ok.frameEnd flight (inFlight phase) .collided).postFrame .collided).newFrame
  | spaceEnds _ phase answer =>
    have served := ok.serveRequest flight
    refine ⟨fun k => (served.slots k).answering (fun _ => ⟨rfl, rfl⟩) rfl ⟨rfl, rfl, rfl⟩, served.unique, served.lease,
      nofun⟩
  | received b _ phase => exact ((landed b).frameEnd (flight.landByte b) (receives phase) .received).enterQuiet rfl
  | lastByteWrong b _ phase =>
    exact (((landed b).frameEnd (flight.landByte b) (receives phase) .faulty).postFrame .damaged).enterQuiet rfl
  | receptionFails c _ phase => exact ((ok.frameEnd flight (receives phase) .faulty).postFrame c).enterQuiet rfl
  | cut _ phase =>
    exact (((conditioned .cut).frameEnd (flight.setCondition .cut) (receives phase) .cut).postFrame .damaged).newFrame
  | sticksInFlight _ phase =>
    exact ((conditioned .lineStuck).frameEnd (flight.setCondition .lineStuck) phase .faulty).enterQuiet rfl
  | sticks _ phase => exact ((conditioned .lineStuck).restQuiet phase).enterQuiet rfl
  | quiets _ phase => exact (ok.restQuiet phase).enterQuiet rfl
  | headerFails c _ phase => exact (((conditioned c).restQuiet (header phase)).breakSequence).enterQuiet rfl
  | decodes h a t mode phase => exact ok.decodeAction flight mode phase h a t
  | breaks _ phase => exact (ok.restQuiet phase).newFrame
  | breaksHeader _ phase => exact (((conditioned .headerFraming).restQuiet (header phase)).breakSequence).newFrame
  | wakes mode =>
    exact ((quiet mode (by decide)).congr (t := s.enterListen .waiting) rfl (.of_entries rfl)).ok nofun
  | wakesStuck mode =>
    exact ((quiet mode (by decide)).congr (t := (s.setCondition .lineStuck).enterListen .recovering) rfl
      (.of_entries rfl)).ok nofun
  | rouseEnds mode =>
    exact ((quiet mode (by decide)).congr (t := s.finishRouse .waiting) rfl (.of_entries rfl)).ok nofun
  | rouseSticks mode =>
    exact ((quiet mode (by decide)).congr (t := (s.setCondition .lineStuck).finishRouse .recovering) rfl
      (.of_entries rfl)).ok nofun
  | holdExpires q _ _ =>
    refine ok.congr s.breakSequence_claims s.breakSequence_records.claimants ?_ ?_ <;> rw [State.breakSequence_line]
  | idles _ phase => exact (ok.restQuiet (Phase.not_inFlight_of_quiet phase)).leaveListen .dormant
  | ticks _ => exact ok.tick
  | freshnessExpires e expires =>
    have live : (s.entry e).state = .live := (of_decide_eq_true expires).1
    exact ok.congr rfl (.setEntry (e := e) (x := { s.entry e with state := .stale }) rfl rfl (by rw [live]; rfl)) rfl rfl
  | leaseExpires k e => exact ClaimTable.setSlot_free_congr ok (k := k) rfl rfl rfl
  | vacates e reply work =>
    have gone : (s.entry e).state.indexed = false := by
      rw [(flight.vacating e (by rw [work]; rfl)).1]
      rfl
    refine ok.changeOne e (ok.freeClaim_eq gone).symm (fun d hd => State.entry_vacate_ne _ hd) rfl rfl
      fun phase entry => ?_
    have := flight.standing e ((flight.marked (by rw [phase]; rfl)).2.trans entry)
    simp [this] at gone
  | powers => exact (ClaimsRest.default (t := { s.startReset with pool := CellPool.reset }) rfl rfl).ok nofun
  | resets => exact (ClaimsRest.default (t := s.startReset) rfl rfl).ok nofun
  | initialised _ => exact ClaimsRest.ok (.default rfl rfl) nofun

/-- Settles O58: a slot is reserved by the frame in flight and settled by its end, and only entries out of the Handle
Index or under the mark change their standing. -/
theorem stepKeepsTheClaimTable : Obligations.StepKeepsTheClaimTable := fun _ _ h flight ok =>
  step_keeps_of_effects (G := FlightOk)
    (fun _ rest g hs => ⟨g.withPending rest, hs.congr rfl (.of_entries rfl) rfl rfl⟩)
    (fun _ c _ g hs => ⟨g.hands c, hs.congr rfl (.of_entries rfl) rfl rfl⟩)
    (fun _ _ _ _ _ hs => hs.congr rfl (.of_entries rfl) rfl rfl) (fun _ _ g hs _ effect => hs.hostEffect g effect)
    (fun _ _ g hs effect => hs.partEffect g effect) h flight ok

end Sys2Proof.Machine
end

section
/-! PROOFS. O59 refuted: a FETCH frame that names no tag. -/

namespace Sys2Proof.Machine
open Sys2Proof.Tests

/-- A FETCH frame in the response space whose request waits and whose frame context holds no tag: no invariant of the
statement asks for one, and `serveRequest` then takes the request without placing a pin. -/
def taglessFetch : State :=
  let s := inFlight .space .fetch 0 17 (holding longSource)
  { s with
    line := { s.line with frame := { s.line.frame with tag := none, asking := true } }
    pending := [.responseSpaceEnd] }

theorem taglessFetch_entry (e : EntryNo) : taglessFetch.entry e = if e = 0 then longSource else Entry.vacant :=
  holding_entry longSource e

theorem taglessFetch_flightOk : FlightOk taglessFetch := by constructor <;> decide +kernel

theorem taglessFetch_lineOk : LineOk taglessFetch := by constructor <;> decide +kernel

theorem taglessFetch_indexOk : IndexOk taglessFetch := fun h e => holding_indexOk (x := longSource) rfl h e

theorem taglessFetch_rangesOk : RangesOk taglessFetch := by constructor <;> decide +kernel

theorem taglessFetch_copiesOk : CopiesOk taglessFetch where
  entries e := by
    rw [taglessFetch_entry]
    split <;> constructor <;> decide +kernel
  held := by decide +kernel
  assembly := by decide +kernel
  pin _ hp := nomatch hp
  sequence _ hq := nomatch hq
  answering _ ha := nomatch ha
  asking := by decide +kernel

/-- Once the space has ended, a FETCH is answered with no pin placed. -/
theorem taglessFetch_step : ∃ t, step taglessFetch = .next t ∧ t.line.phase = .answering ∧
    t.line.frame.asking = false ∧ t.line.frame.action = some .fetch ∧ t.table.pin = none :=
  ⟨_, rfl, by decide +kernel, by decide +kernel, by decide +kernel, by decide +kernel⟩

/-- Refutes O59: in a state that meets every premise a FETCH frame may carry no tag; its waiting request is then taken
without a pin, and the answer begins with none. -/
theorem not_stepKeepsTheCopies : ¬ Obligations.StepKeepsTheCopies := by
  unfold Obligations.StepKeepsTheCopies
  intro keeps
  obtain ⟨t, ht, phase, asked, action, pin⟩ := taglessFetch_step
  have copies := keeps _ t ht taglessFetch_flightOk taglessFetch_lineOk taglessFetch_indexOk taglessFetch_rangesOk
    taglessFetch_copiesOk
  have placed := copies.answering (.inr phase) asked action
  rw [pin] at placed
  nomatch placed

end Sys2Proof.Machine
end

section
/-! PROOFS. O60: every step keeps each cell on the free list or in one copy. -/

namespace Sys2Proof.Machine

/-! ## Steps that move cells without losing any -/

/-- Each cell occurs on the free list and in the copies, taken together, as often as before. -/
def CellsKept (s t : State) : Prop :=
  ∀ c : CellNo, (t.pool.free ++ t.copyCells).count c = (s.pool.free ++ s.copyCells).count c

theorem CellsKept.ok {s t : State} (h : CellsKept s t) (ok : CellsOk s) : CellsOk t := fun c => (h c).trans (ok c)

theorem CellsKept.trans {s t u : State} (h : CellsKept s t) (g : CellsKept t u) : CellsKept s u := fun c =>
  (g c).trans (h c)

/-- Where the free list stays and each entry has the same cells, none has moved. -/
theorem CellsKept.congr {s t : State} (free : t.pool.free = s.pool.free)
    (cells : ∀ e : EntryNo, (t.entry e).cells = (s.entry e).cells) : CellsKept s t := fun c => by
  rw [free, State.copyCells_congr cells]

theorem CellsKept.same {s t : State} (entries : t.table.entries = s.table.entries) (free : t.pool.free = s.pool.free) :
    CellsKept s t := .congr free fun e => by simp only [State.entry, TableController.entry, entries]

theorem CellsKept.refl (s : State) : CellsKept s s := .same rfl rfl

/-- What one entry gives up the free list gains, and the other way about. -/
theorem CellsKept.change {s t : State} (e : EntryNo) (other : ∀ d : EntryNo, d ≠ e → t.entry d = s.entry d)
    (moved : ∀ c : CellNo, t.pool.free.count c + (t.entry e).cells.count c =
      s.pool.free.count c + (s.entry e).cells.count c) : CellsKept s t := fun c => by
  have copies := State.count_copyCells_change other c
  have pool := moved c
  simp only [List.count_append]
  omega

theorem CellsKept.setEntry {s t : State} {e : EntryNo} {x : Entry}
    (entries : t.table.entries = (s.setEntry e x).table.entries)
    (moved : ∀ c : CellNo, t.pool.free.count c + x.cells.count c = s.pool.free.count c + (s.entry e).cells.count c) :
    CellsKept s t := by
  have entry : ∀ d : EntryNo, t.entry d = (s.setEntry e x).entry d := fun d => by
    simp only [State.entry, TableController.entry, entries]
  refine .change e (fun d hd => by rw [entry, State.entry_setEntry_ne _ _ hd]) fun c => ?_
  rw [entry, State.entry_setEntry_self]
  exact moved c

/-- An entry written with the cells it had. -/
theorem CellsKept.rewrite {s t : State} {e : EntryNo} {x : Entry}
    (entries : t.table.entries = (s.setEntry e x).table.entries) (free : t.pool.free = s.pool.free)
    (cells : x.cells = (s.entry e).cells) : CellsKept s t := .setEntry entries fun c => by rw [free, cells]

theorem CellsKept.post {s t : State} (h : CellsKept s t) (e : EntryNo) (c : Cause) : CellsKept s (t.post e c) :=
  h.trans (.same rfl rfl)

/-- The cells an allocation takes and those it leaves are the free ones (R29). -/
theorem CellPool.count_allocate {p q : CellPool} {n : Nat} {cells : List CellNo} (h : p.allocate n = some (cells, q))
    (c : CellNo) : q.free.count c + cells.count c = p.free.count c := by
  obtain ⟨_, rfl, rfl⟩ := CellPool.allocate_eq_some.1 h
  conv_rhs => rw [← List.take_append_drop n p.free]
  rw [List.count_append, Nat.add_comm]

/-! ## The operations -/

theorem State.releasePin_cells (s : State) : CellsKept s s.releasePin := by
  rw [State.releasePin_eq]
  split
  · exact .refl s
  · exact .same rfl rfl
  · next e o _ =>
    rw [State.freeHeld_eq]
    refine .setEntry (e := e) (x := { s.entry e with held := none }) rfl fun c => ?_
    simp only [Entry.cells, CellPool.release_free, List.count_append, Option.map_none, Option.getD_none, List.count_nil,
      State.setPin_entry, State.setPin_pool]
    omega

theorem State.freeStaged_cells (s : State) (e : EntryNo) : CellsKept s (s.freeStaged e) := by
  rw [State.freeStaged_eq]
  refine .setEntry (e := e) (x := { s.entry e with staged := none }) rfl fun c => ?_
  simp only [Entry.cells, CellPool.release_free, List.count_append, Option.getD_none, List.count_nil]
  omega

theorem State.closeSequence_cells (s : State) : CellsKept s s.closeSequence := by
  rw [State.closeSequence_eq]
  split
  · exact .refl s
  · exact s.releasePin_cells.trans (.same rfl rfl)
  · exact (s.freeStaged_cells _).trans (.same rfl rfl)

theorem State.breakSequence_cells (s : State) : CellsKept s s.breakSequence :=
  s.closeSequence_cells.trans (.same (by rw [State.breakSequence_table]) (by rw [State.breakSequence_pool]))

theorem State.leaveListen_cells (s : State) (m : LineMode) : CellsKept s (s.leaveListen m) :=
  s.closeSequence_cells.trans (.same (by rw [State.leaveListen_table]) (by rw [State.leaveListen_pool]))

theorem State.enterQuiet_cells (s : State) (p : Phase) : CellsKept s (s.enterQuiet p) :=
  State.enterQuiet_keeps (.same rfl rfl) fun _ _ =>
    .trans (t := { s with line := s.line.quieted p }) (.same rfl rfl) (State.leaveListen_cells _ _)

theorem State.postAt_cells (s : State) (e : Option EntryNo) (c : Cause) : CellsKept s (s.postAt e c) :=
  .same (by rw [State.postAt_table]) (by rw [State.postAt_pool])

theorem State.postFrame_cells (s : State) (c : Cause) : CellsKept s (s.postFrame c) :=
  .same (by rw [State.postFrame_table]) (by rw [State.postFrame_pool])

theorem State.met_cells (s : State) (h : Handle) (a : Action) (t : Tag) : CellsKept s (s.met h a t) := by
  show CellsKept s (s.meetSequence (s.line.isContinuation h a t))
  unfold State.meetSequence
  split
  · exact .same rfl rfl
  · exact s.closeSequence_cells

theorem State.decodeAction_cells (s : State) (h : Handle) (a : Action) (t : Tag) : CellsKept s (s.decodeAction h a t) := by
  have met := s.met_cells h a t
  have started : ∀ (p : Phase) (e : EntryNo) (n : Nat),
      CellsKept s (((s.met h a t).startFrame p e n).postAt (s.brokenAt h a t) .segBroken) := fun p e n =>
    (met.trans (.same rfl rfl)).trans (State.postAt_cells ((s.met h a t).startFrame p e n) _ _)
  generalize out : s.decodeAction h a t = u
  have decoded := s.decodeAction_decoded h a t
  rw [out] at decoded
  cases decoded with
  | skips _ => exact (met.trans (State.postAt_cells _ _ _)).trans (State.enterQuiet_cells _ _)
  | skipsPosting e c _ _ => exact ((met.trans (State.postAt_cells _ _ _)).post e c).trans (State.enterQuiet_cells _ _)
  | answers e n _ _ =>
    exact (started _ e n).trans (.same (State.enterSpace_entries _ _ _ _) (by rw [State.enterSpace_pool]))
  | receives e n _ _ => exact (started _ e n).trans (.same rfl rfl)

/-- A teardown, and what then becomes of the entry without its copies (R22, R25, R26). -/
theorem CellsKept.tornDown {s t : State} {e : EntryNo} (other : ∀ d : EntryNo, d ≠ e → t.entry d = s.entry d)
    (gone : (t.entry e).cells = []) (pool : t.pool = (s.teardown e).pool) : CellsKept s t := by
  refine .change e other fun c => ?_
  rw [gone, pool, State.teardown_eq, List.count_append, List.count_nil, Nat.add_zero]

theorem State.commitEntry_cells {s : State} {e : EntryNo} {cells : List CellNo}
    (staged : (s.entry e).staged = some cells)
    (held : s.currentPinned e = true → (s.entry e).held = none) : CellsKept s (s.commitEntry e cells) := by
  by_cases free : (s.entry e).current = none ∨ s.currentPinned e = false
  · rw [State.commitEntry_unpinned free]
    refine .setEntry (e := e) (x := (s.entry e).committed cells (s.entry e).held) rfl fun c => ?_
    simp only [Entry.committed, Entry.cells, CellPool.release_free, List.count_append, staged, Option.getD_none,
      Option.getD_some, List.count_nil]
    omega
  · rw [not_or] at free
    obtain ⟨old, current⟩ := Option.ne_none_iff_exists'.1 free.1
    have pinned : s.currentPinned e = true := by simpa using free.2
    rw [State.commitEntry_pinned current pinned]
    refine .setEntry (e := e) (x := (s.entry e).committed cells (some ⟨old, (s.entry e).version⟩)) rfl fun c => ?_
    simp only [Entry.committed, Entry.cells, List.count_append, staged, current, held pinned, Option.getD_none,
      Option.getD_some, Option.map_none, Option.map_some, List.count_nil]
    omega

/-! ## The end of a frame (R103) -/

/-- A MIRROR has no staged copy where no sequence is open (R33, R111). -/
def State.assemblesOpenly (s : State) : Prop :=
  s.line.seq = none → ∀ e : EntryNo, (s.entry e).role = .mirror → (s.entry e).staged = none

theorem CopiesOk.assemblesOpenly {s : State} (ok : CopiesOk s) : s.assemblesOpenly := fun seq e role => by
  by_contra staged
  have := ok.assembly e role (Option.isSome_iff_ne_none.2 staged)
  simp [seq] at this

theorem TableReport.cells {s t : State} {how : FrameEnd} {e : EntryNo} (open_ : s.assemblesOpenly)
    (report : TableReport s how e t) : CellsKept s t := by
  cases report with
  | vacates _ =>
    refine .tornDown (e := e) (fun d hd => ?_) (by rw [State.entry_vacate_self]; rfl) rfl
    rw [State.entry_vacate_ne _ hd, State.teardown_entry_ne s hd]
  | nothing _ _ => exact .refl s
  | posts c _ _ => exact .same rfl rfl
  | overwrites v stale claimed cells data _ _ _ current =>
    refine .rewrite (e := e) (x := (s.entry e).renewed v stale claimed cells) rfl ?_ ?_
    · exact CellPool.writeRecord_free _ _ _ _
    · simp only [Entry.renewed, Entry.cells, current]
  | makes v stale claimed cells p data _ _ _ current _ takes =>
    refine .setEntry (e := e) (x := (s.entry e).renewed v stale claimed cells) rfl fun c => ?_
    have taken := CellPool.count_allocate takes c
    simp only [Entry.renewed, Entry.cells, current, State.post_pool, CellPool.zero, CellPool.writeRecord_free, List.count_append,
      Option.getD_none, Option.getD_some, List.count_nil]
    omega
  | opens v cells p data _ _ role _ seq takes =>
    refine .setEntry (e := e) (x := { s.entry e with staged := some cells }) rfl fun c => ?_
    have taken := CellPool.count_allocate takes c
    simp only [Entry.cells, open_ seq e role, CellPool.zero, CellPool.writeRecord_free, List.count_append,
      Option.getD_none, Option.getD_some, List.count_nil]
    omega
  | goesOn q data _ _ _ _ _ => exact .same rfl (CellPool.writeRecord_free _ _ _ _)
  | completes q data b _ _ _ _ =>
    rw [State.completeAssembly_eq]
    refine .setEntry (e := e) (x := { (s.entry e).renewed (tagVersion b) (tagStale b) (tagClaimed b)
      ((s.entry e).staged.getD []) with staged := none }) rfl fun c => ?_
    simp only [Entry.renewed, Entry.cells, CellPool.release_free, CellPool.writeRecord_free, List.count_append,
      Option.getD_none, Option.getD_some, List.count_nil]
    omega
  | breaks _ _ _ => exact s.breakSequence_cells
  | serves _ _ _ _ _ => exact .same rfl rfl
  | served _ _ _ => exact s.releasePin_cells.trans (.same rfl rfl)
  | answerFails _ _ _ => exact s.releasePin_cells.trans s.releasePin.breakSequence_cells
  | ends _ _ =>
    refine .tornDown (e := e) (fun d hd => s.endEntry_entry_ne hd) ?_ (by rw [State.endEntry_pool])
    rw [State.endEntry_entry_self]
    rfl

theorem State.frameEnd_cells {s : State} (open_ : s.assemblesOpenly) (flight : FlightOk s)
    (phase : s.line.phase.inFlight = true) (how : FrameEnd) : CellsKept s (s.frameEnd how) := by
  have phase : s.serveRequest.line.phase.inFlight = true := by rw [State.serveRequest_line]; exact phase
  obtain ⟨e, entry⟩ := Option.isSome_iff_exists.1 (flight.serveRequest.marked phase).1
  have served : CellsKept s ((s.serveRequest.reportToClaims how e).setInFlight none) :=
    .same (by rw [State.setInFlight_table, State.reportToClaims_table]; exact s.serveRequest_entries)
      (by rw [State.setInFlight_pool, State.reportToClaims_pool, State.serveRequest_pool])
  have still : ((s.serveRequest.reportToClaims how e).setInFlight none).assemblesOpenly := by
    intro seq d role
    rw [State.setInFlight_line, State.reportToClaims_line, State.serveRequest_line] at seq
    rw [State.setInFlight_entry, State.reportToClaims_entry, State.serveRequest_entry] at role ⊢
    exact open_ seq d role
  exact served.trans ((State.reportEnd_report entry how).cells still)

/-! ## The effects -/

theorem Entry.ticked_cells (x : Entry) : x.ticked.cells = x.cells := by
  unfold Entry.ticked Entry.advance
  split <;> split <;> rfl

theorem State.tick_cells (s : State) : CellsKept s s.tick := by
  have counted : CellsKept s s.counted := .congr rfl fun e => by
    have entry : s.counted.entry e = (s.entry e).ticked := s.table.ticked_entry e
    rw [entry, Entry.ticked_cells]
  rw [State.tick_eq]
  split
  · unfold State.idleExpired
    split
    · exact (counted.trans s.counted.closeSequence_cells).trans (.same rfl rfl)
    · exact counted.trans (.same rfl rfl)
  · exact counted.trans (.same rfl rfl)

theorem State.resetBlocks_free (s : State) : s.resetBlocks.pool.free = CellPool.allFree := by
  simp only [State.resetBlocks]

/-- A reset leaves every entry VACANT and every cell free (R2, R29). -/
theorem CellsOk.reset {t : State} (table : t.table = TableController.reset) (free : t.pool.free = CellPool.allFree) :
    CellsOk t := fun c => by
  have copies : t.copyCells.count c = 0 := by
    rw [State.count_copyCells]
    have none : ∀ e : EntryNo, t.entry e = Entry.vacant := fun e => by
      rw [State.entry, table]
      exact Tests.reset_entry e
    simp [none, Entry.vacant, Entry.cells]
  rw [List.count_append, copies, free]
  exact List.count_eq_one_of_mem (List.nodup_finRange 384) (List.mem_finRange c)

theorem CopiesOk.cells_absent {s : State} (ok : CopiesOk s) {e : EntryNo}
    (state : (s.entry e).state = .vacant ∨ (s.entry e).state = .ended) : (s.entry e).cells = [] :=
  ((ok.entries e).absent state).1

/-- The copy a commit holds back finds no held copy in its place: the pin marks one copy (R40, R43). -/
theorem CopiesOk.held_of_currentPinned {s : State} (ok : CopiesOk s) {e : EntryNo} (pinned : s.currentPinned e = true) :
    (s.entry e).held = none := by
  by_contra some
  have owned := ok.held e (Option.isSome_iff_ne_none.2 some)
  unfold State.currentPinned at pinned
  cases pin : s.table.pin with
  | none => simp [pin] at owned
  | some p => simp_all

theorem HostEffect.cells {s t : State} (copies : CopiesOk s) (flight : FlightOk s) (ok : CellsOk s)
    (effect : HostEffect s t) : CellsOk t := by
  have kept : ∀ {r : State} (status : Status) (data : List Byte), CellsKept s r → CellsOk (r.complete status data) :=
    fun status data h => (h.trans (.same rfl rfl)).ok ok
  cases effect with
  | replies status data _ _ => exact kept _ _ (.refl s)
  | configures r holdTb idle lease _ _ => exact kept _ _ (.same rfl rfl)
  | leaves m _ phase => exact kept _ _ (s.leaveListen_cells m)
  | waits w _ => exact CellsKept.ok (.same rfl rfl) ok
  | abandons phase =>
    exact kept _ _ (((State.frameEnd_cells copies.assemblesOpenly flight phase .abandoned).trans
      (t := (s.frameEnd .abandoned).setCondition .abandoned) (.same rfl rfl)).trans (State.leaveListen_cells _ _))
  | collides phase =>
    exact kept _ _ (((State.frameEnd_cells copies.assemblesOpenly flight phase .collided).trans
      (State.postFrame_cells _ _)).trans (State.leaveListen_cells _ _))
  | enters mode => exact kept _ _ (.same rfl rfl)
  | quits m _ mode => exact kept _ _ (.same rfl rfl)
  | rouses mode => exact CellsKept.ok (.same rfl rfl) ok
  | defines e handle role len permits limit mask _ _ vacant =>
    refine kept _ _ (.rewrite (e := e) (x := definedEntry handle role len permits limit) rfl rfl ?_)
    rw [copies.cells_absent (.inl ((TableController.firstVacant_eq_some _ _).1 vacant).1)]
    rfl
  | amends e selector permits mask limit _ _ =>
    rw [State.amendEntry_eq]
    refine kept _ _ (.rewrite (e := e) (x := (s.entry e).amend selector permits limit) rfl rfl rfl)
  | stagesInPlace e cells o data _ => exact kept _ _ (.same rfl (CellPool.writeRecord_free _ _ _ _))
  | stages e cells p o data _ _ staged takes =>
    refine kept _ _ (.setEntry (e := e) (x := { s.entry e with staged := some cells }) rfl fun c => ?_)
    have taken := CellPool.count_allocate takes c
    have filled : (s.stagedFill e cells p).free = p.free := by
      unfold State.stagedFill
      split <;> exact CellPool.writeRecord_free _ _ _ _
    simp only [Entry.cells, staged, CellPool.writeRecord_free, filled, List.count_append, Option.getD_none,
      Option.getD_some, List.count_nil]
    omega
  | commits e cells _ _ staged => exact kept _ _ (State.commitEntry_cells staged copies.held_of_currentPinned)
  | discards e _ _ => exact kept _ _ (s.freeStaged_cells e)
  | marksRetiring e _ _ =>
    exact kept _ _ (.rewrite (e := e) (x := { s.entry e with state := .retiring }) rfl rfl rfl)
  | tearsDown e _ _ =>
    refine kept _ _ (.tornDown (e := e) (fun d hd => ?_) (by rw [State.entry_vacate_self]; rfl)
      (by rw [State.vacate_pool, State.clear_pool]))
    rw [State.entry_vacate_ne _ hd, State.clear_entry, State.teardown_entry_ne s hd]
  | vacates e state =>
    exact kept _ _ (.rewrite (e := e) (x := Entry.vacant) rfl rfl (copies.cells_absent (.inr state)).symm)
  | holds e k _ _ _ => exact kept _ _ (.same rfl rfl)
  | frees k => exact kept _ _ (.same rfl rfl)
  | freesPosting k e => exact kept _ _ (.same rfl rfl)
  | takes e rest _ _ => exact kept _ _ (.same rfl rfl)
  | takesEnding e rest _ _ => exact CellsKept.ok (.same rfl rfl) ok
  | emptiesConditions => exact CellsKept.ok (.same rfl rfl) ok
  | restarts => exact CellsOk.reset (t := s.finishRestart) rfl s.resetBlocks_free

theorem PartEffect.cells {s t : State} (copies : CopiesOk s) (flight : FlightOk s) (ok : CellsOk s)
    {draw : Drawn} (effect : PartEffect s draw t) : CellsOk t := by
  have ends : ∀ how : FrameEnd, s.line.phase.inFlight = true → CellsKept s (s.frameEnd how) := fun how phase =>
    State.frameEnd_cells copies.assemblesOpenly flight phase how
  have landed : ∀ (b : Byte) (how : FrameEnd), s.line.phase = .receiving → CellsKept s ((s.landByte b).frameEnd how) :=
    fun b how phase => CellsKept.trans (t := s.landByte b) (.same rfl rfl)
      (State.frameEnd_cells (s := s.landByte b) copies.assemblesOpenly (flight.landByte b)
        (by show s.line.phase.inFlight = true; rw [phase]; rfl) how)
  have conditioned : ∀ (c : LineCondition) (how : FrameEnd), s.line.phase.inFlight = true →
      CellsKept s ((s.setCondition c).frameEnd how) := fun c how phase =>
    CellsKept.trans (t := s.setCondition c) (.same rfl rfl)
      (State.frameEnd_cells (s := s.setCondition c) copies.assemblesOpenly (flight.setCondition c) phase how)
  have inFlight : s.line.phase = .space ∨ s.line.phase = .answering → s.line.phase.inFlight = true := by
    rintro (h | h) <;> rw [h] <;> rfl
  have receives : s.line.phase = .receiving → s.line.phase.inFlight = true := fun h => by rw [h]; rfl
  have newFrame : ∀ {r : State}, CellsKept s r → CellsKept s r.newFrame := fun h => h.trans (.same rfl rfl)
  cases effect with
  | nothing => exact ok
  | port h _ => exact CellsKept.ok (.same rfl rfl) ok
  | line l _ => exact CellsKept.ok (.same rfl rfl) ok
  | answerCompletes _ phase => exact ((ends _ (inFlight (.inr phase))).trans (State.enterQuiet_cells _ _)).ok ok
  | collides _ phase =>
    exact (((ends _ (inFlight phase)).trans (State.postFrame_cells _ _)).trans (State.enterQuiet_cells _ _)).ok ok
  | collidesInBreak _ phase => exact (newFrame ((ends _ (inFlight phase)).trans (State.postFrame_cells _ _))).ok ok
  | spaceEnds _ phase answer =>
    exact CellsKept.ok (.same (State.serveRequest_entries s) (by show s.serveRequest.pool.free = _; rw [State.serveRequest_pool])) ok
  | received b _ phase => exact ((landed b _ phase).trans (State.enterQuiet_cells _ _)).ok ok
  | lastByteWrong b _ phase =>
    exact (((landed b _ phase).trans (State.postFrame_cells _ _)).trans (State.enterQuiet_cells _ _)).ok ok
  | receptionFails c _ phase =>
    exact (((ends _ (receives phase)).trans (State.postFrame_cells _ _)).trans (State.enterQuiet_cells _ _)).ok ok
  | cut _ phase => exact (newFrame ((conditioned _ _ (receives phase)).trans (State.postFrame_cells _ _))).ok ok
  | sticksInFlight _ phase => exact ((conditioned _ _ phase).trans (State.enterQuiet_cells _ _)).ok ok
  | sticks _ phase =>
    exact (CellsKept.trans (t := s.setCondition .lineStuck) (.same rfl rfl) (State.enterQuiet_cells _ _)).ok ok
  | quiets _ phase => exact (s.enterQuiet_cells _).ok ok
  | headerFails c _ phase =>
    exact ((CellsKept.trans (t := s.setCondition c) (.same rfl rfl) (State.breakSequence_cells _)).trans
      (State.enterQuiet_cells _ _)).ok ok
  | decodes h a t _ _ => exact (s.decodeAction_cells h a t).ok ok
  | breaks _ _ => exact (newFrame (.refl s)).ok ok
  | breaksHeader _ _ =>
    exact (newFrame (CellsKept.trans (t := s.setCondition .headerFraming) (.same rfl rfl)
      (State.breakSequence_cells _))).ok ok
  | wakes _ => exact CellsKept.ok (.same rfl rfl) ok
  | wakesStuck _ => exact CellsKept.ok (.same rfl rfl) ok
  | rouseEnds _ => exact CellsKept.ok (.same rfl rfl) ok
  | rouseSticks _ => exact CellsKept.ok (.same rfl rfl) ok
  | holdExpires q _ _ => exact s.breakSequence_cells.ok ok
  | idles _ _ => exact (s.leaveListen_cells _).ok ok
  | ticks _ => exact s.tick_cells.ok ok
  | freshnessExpires e _ =>
    exact CellsKept.ok (.rewrite (e := e) (x := { s.entry e with state := .stale }) rfl rfl rfl) ok
  | leaseExpires k e => exact CellsKept.ok (.same rfl rfl) ok
  | vacates e reply work =>
    have ended := (flight.vacating e (by rw [work]; rfl)).1
    exact CellsKept.ok (.rewrite (e := e) (x := Entry.vacant) rfl rfl (copies.cells_absent (.inr ended)).symm) ok
  | powers => exact CellsOk.reset (t := { s.startReset with pool := CellPool.reset }) rfl (by simp only [CellPool.reset])
  | resets => exact CellsOk.reset (t := s.startReset) rfl s.resetBlocks_free
  | initialised _ => exact CellsOk.reset rfl s.resetBlocks_free

/-- Settles O60: every effect moves cells between the free list and the copies of one entry; the copies' invariant says
that the places written held none. -/
theorem stepKeepsEveryCellOnce : Obligations.StepKeepsEveryCellOnce := fun _ _ h flight _ _ _ copies ok =>
  step_keeps_of_effects (G := fun s => FlightOk s ∧ CopiesOk s)
    (fun _ rest g hs =>
      ⟨⟨g.1.withPending rest, g.2.entries, g.2.held, g.2.assembly, g.2.pin, g.2.sequence, g.2.answering, g.2.asking⟩, hs⟩)
    (fun _ c _ g hs =>
      ⟨⟨g.1.hands c, g.2.entries, g.2.held, g.2.assembly, g.2.pin, g.2.sequence, g.2.answering, g.2.asking⟩, hs⟩)
    (fun _ _ _ _ _ hs => hs) (fun _ _ g hs _ effect => effect.cells g.2 g.1 hs)
    (fun _ _ g hs effect => effect.cells g.2 g.1 hs) h ⟨flight, copies⟩ ok

end Sys2Proof.Machine
end

section
/-! PROOFS. O2 and O3: what every command answers, what it draws, and what a refusal leaves. -/

namespace Sys2Proof.Machine

/-! ## The queue and the counters of free orders (logs 7, 10 and 22) -/

theorem State.leaveListen_queue (s : State) (m : LineMode) : QueueKept s (s.leaveListen m) :=
  s.closeSequence_reports.queue.trans (by rw [State.leaveListen_eq]; exact ⟨rfl, rfl, rfl⟩)

theorem State.enterQuiet_queue (s : State) (p : Phase) : QueueKept s (s.enterQuiet p) :=
  State.enterQuiet_keeps ⟨rfl, rfl, rfl⟩ fun _ _ =>
    .trans (t := { s with line := s.line.quieted p }) ⟨rfl, rfl, rfl⟩ (State.leaveListen_queue _ _)

theorem State.postAt_queue (s : State) (e : Option EntryNo) (c : Cause) : QueueKept s (s.postAt e c) := by
  unfold State.postAt
  split <;> exact ⟨rfl, rfl, rfl⟩

theorem State.met_queue (s : State) (h : Handle) (a : Action) (t : Tag) : QueueKept s (s.met h a t) := by
  show QueueKept s (s.meetSequence (s.line.isContinuation h a t))
  unfold State.meetSequence
  split
  · exact ⟨rfl, rfl, rfl⟩
  · exact s.closeSequence_reports.queue

theorem State.idleExpired_queue (s : State) : QueueKept s s.idleExpired := by
  unfold State.idleExpired
  split
  · exact s.closeSequence_reports.queue.trans ⟨rfl, rfl, rfl⟩
  · exact ⟨rfl, rfl, rfl⟩

/-- A tick draws one order, for its postings (log 7). -/
theorem State.tick_orders (s : State) :
    s.tick.pending = s.pending ∧ s.tick.orderCount = s.orderCount + 1 ∧ s.tick.requestCount = s.requestCount := by
  have expired := s.counted.idleExpired_queue
  rw [State.tick_eq]
  split
  · exact ⟨expired.1, rfl, expired.2.2⟩
  · exact ⟨rfl, rfl, rfl⟩

theorem HostEffect.queue {s t : State} (effect : HostEffect s t) : QueueKept s t := by
  cases effect with
  | leaves m _ _ => exact s.leaveListen_queue m
  | abandons _ =>
    exact (s.frameEnd_ends .abandoned).queue.trans
      (State.leaveListen_queue ((s.frameEnd .abandoned).setCondition .abandoned) .offline)
  | collides _ => exact s.frameCollided_ends.queue.trans (s.frameCollided.leaveListen_queue .offline)
  | amends e selector permits mask limit _ _ =>
    rw [State.amendEntry_eq]
    exact ⟨rfl, rfl, rfl⟩
  | commits e cells _ _ _ =>
    show QueueKept s (s.commitEntry e cells)
    rw [State.commitEntry_frame]
    exact ⟨rfl, rfl, rfl⟩
  | discards e _ _ =>
    rw [State.freeStaged_eq]
    exact ⟨rfl, rfl, rfl⟩
  | tearsDown e _ _ =>
    have vacated : ∀ r : State, QueueKept r (((r.clear e).vacate e).complete .done [EntryState.code .vacant]) := fun _ =>
      ⟨rfl, rfl, rfl⟩
    exact (s.teardown_reports e).queue.trans (vacated _)
  | _ => exact ⟨rfl, rfl, rfl⟩

theorem PartEffect.queue {s t : State} (effect : PartEffect s .nothing t) : QueueKept s t := by
  have quiet : ∀ {r : State} (p : Phase), QueueKept s r → QueueKept s (r.enterQuiet p) := fun p h =>
    h.trans (State.enterQuiet_queue _ p)
  cases effect with
  | answerCompletes _ _ => exact quiet _ (s.frameEnd_ends .completed).queue
  | collides _ _ => exact quiet _ s.frameCollided_ends.queue
  | collidesInBreak _ _ => exact s.frameCollided_ends.queue
  | spaceEnds _ _ _ => exact s.serveRequest_queue
  | received b _ _ => exact quiet _ ((s.landByte b).frameEnd_ends .received).queue
  | lastByteWrong b _ _ =>
    exact quiet _ (((s.landByte b).frameEnd_ends .faulty).queue.trans (State.postFrame_reports _ _).queue)
  | receptionFails c _ _ => exact quiet _ ((s.frameEnd_ends .faulty).queue.trans (State.postFrame_reports _ _).queue)
  | cut _ _ => exact ((s.setCondition .cut).frameEnd_ends .cut).queue.trans (State.postFrame_reports _ .damaged).queue
  | sticksInFlight _ _ => exact quiet _ ((s.setCondition .lineStuck).frameEnd_ends .faulty).queue
  | sticks _ _ => exact (s.setCondition .lineStuck).enterQuiet_queue _
  | quiets _ _ => exact s.enterQuiet_queue _
  | headerFails c _ _ => exact quiet _ (s.setCondition c).breakSequence_reports.queue
  | breaksHeader _ _ => exact (s.setCondition .headerFraming).breakSequence_reports.queue
  | holdExpires q _ _ => exact s.breakSequence_reports.queue
  | idles _ _ => exact s.leaveListen_queue _
  | _ => exact ⟨rfl, rfl, rfl⟩

/-- The queue and the posting orders stay, and an order of a request is drawn only while a host command stands handed to
its block (log 10). -/
structure RequestDrawn (s t : State) : Prop where
  pending : t.pending = s.pending
  orders : t.orderCount = s.orderCount
  requests : t.requestCount = s.requestCount ∨
    Work.isHanded s.host.work = true ∧ t.requestCount = s.requestCount + 1

theorem QueueKept.drawn {s t : State} (h : QueueKept s t) : RequestDrawn s t := ⟨h.1, h.2.1, .inl h.2.2⟩

theorem QueueKept.then_drawn {s t u : State} (h : QueueKept s t) (host : t.host = s.host) (g : RequestDrawn t u) :
    RequestDrawn s u where
  pending := g.pending.trans h.1
  orders := g.orders.trans h.2.1
  requests := by rw [← h.2.2, ← host]; exact g.requests

theorem State.sendRequest_drawn (s : State) : RequestDrawn s s.sendRequest := by
  unfold State.sendRequest
  split
  · next handed =>
    dsimp only
    split
    · exact ⟨rfl, rfl, .inr ⟨handed, rfl⟩⟩
    · have served := State.serveRequest_queue { s.setAsking true with requestCount := s.requestCount + 1 }
      exact ⟨served.1, served.2.1, .inr ⟨handed, served.2.2⟩⟩
  · exact ((QueueKept.refl s).trans (s.setAsking true).serveRequest_queue).drawn

theorem State.enterSpace_drawn (s : State) (e : EntryNo) (a : Action) (t : Tag) : RequestDrawn s (s.enterSpace e a t) := by
  unfold State.enterSpace
  split
  · unfold State.decideRetire
    dsimp only
    split <;> exact ⟨rfl, rfl, .inl rfl⟩
  all_goals exact s.sendRequest_drawn

theorem State.met_host (s : State) (h : Handle) (a : Action) (t : Tag) : (s.met h a t).host = s.host := by
  show (s.meetSequence (s.line.isContinuation h a t)).host = s.host
  unfold State.meetSequence
  split <;> simp

theorem State.decodeAction_drawn (s : State) (h : Handle) (a : Action) (t : Tag) :
    RequestDrawn s (s.decodeAction h a t) := by
  have met : QueueKept s ((s.met h a t).postAt (s.brokenAt h a t) .segBroken) :=
    (s.met_queue h a t).trans (State.postAt_queue _ _ _)
  have started : ∀ (p : Phase) (e : EntryNo) (n : Nat),
      QueueKept s (((s.met h a t).startFrame p e n).postAt (s.brokenAt h a t) .segBroken) := fun p e n =>
    (s.met_queue h a t).trans (State.postAt_queue ((s.met h a t).startFrame p e n) _ _)
  generalize out : s.decodeAction h a t = u
  have decoded := s.decodeAction_decoded h a t
  rw [out] at decoded
  cases decoded with
  | skips _ => exact (met.trans (State.enterQuiet_queue _ _)).drawn
  | skipsPosting e c _ _ =>
    exact (met.trans (State.enterQuiet_queue (((s.met h a t).postAt (s.brokenAt h a t) .segBroken).post e c) _)).drawn
  | answers e n _ _ =>
    refine (started .space e n).then_drawn ?_ (State.enterSpace_drawn _ _ _ _)
    rw [State.postAt_host]
    exact s.met_host h a t
  | receives e n _ _ => exact (QueueKept.trans (u := State.awaitResponse _) (started .receiving e n) ⟨rfl, rfl, rfl⟩).drawn

/-! ## Every command answers (O2) -/

/-- Every command answers a next state: none faults and none is refused by the model. -/
theorem exec_next (c : Instr) (s : State) : ∃ t : State, exec c s = .next t := by
  cases c <;> exact ⟨_, rfl⟩

theorem Carried.queue {s r : State} (h : Carried s r) : QueueKept s r := by
  cases h <;> exact ⟨rfl, rfl, rfl⟩

/-- Settles O2, over the effects a command can have: only a tick and a header's decode draw an order. -/
theorem everyCommandAnswersAndKeepsTheQueue : Obligations.EveryCommandAnswersAndKeepsTheQueue := fun c s => by
  obtain ⟨t, answers⟩ := exec_next c s
  refine ⟨t, answers, ?_⟩
  by_cases ticks : c = .tick ∧ s.host.stage = .complete
  · obtain ⟨rfl, stage⟩ := ticks
    have ticked : t = s.tick := by
      have : exec .tick s = .next s.tick := congrArg Host.Outcome.next (if_pos stage)
      exact Host.Outcome.next.inj (answers.symm.trans this)
    obtain ⟨pending, orders, requests⟩ := s.tick_orders
    rw [ticked, if_pos ⟨rfl, stage⟩]
    exact ⟨pending, orders, .inl requests⟩
  · rw [if_neg ticks, Nat.add_zero]
    have kept : QueueKept s t → t.pending = s.pending ∧ t.orderCount = s.orderCount ∧
        (t.requestCount = s.requestCount ∨ Work.isHanded s.host.work = true ∧ t.requestCount = s.requestCount + 1 ∧
          ∃ (b : Byte) (dominant : Bool), c = .headerCharacter b dominant) := fun h => ⟨h.1, h.2.1, .inl h.2.2⟩
    cases exec_effects answers with
    | nothing eq => exact kept (eq ▸ .refl s)
    | part event effect => exact kept effect.queue
    | ticks tick stage eq => exact absurd ⟨tick, stage⟩ ticks
    | decodes b dominant character effect =>
      cases effect with
      | decodes h a tag _ _ =>
        have drawn := s.decodeAction_drawn h a tag
        exact ⟨drawn.pending, drawn.orders, drawn.requests.imp_right fun r => ⟨r.1, r.2, b, dominant, character⟩⟩
    | refused status idle known eq => exact kept (eq ▸ ⟨rfl, rfl, rfl⟩)
    | host r carried effect => exact kept (carried.queue.trans effect.queue)

/-! ## A refusal changes nothing but the Host Port (O3) -/

/-- A host command that completes now completes DONE, or gives its reply and changes nothing else. -/
theorem HostEffect.done_or_only {s t : State} (effect : HostEffect s t) (completes : t.host.work = none) :
    t.host.slot.status = .done ∨ OnlyHostChanged s t := by
  cases effect with
  | replies status data _ _ => exact .inr rfl
  | waits w _ => cases completes
  | rouses _ => cases completes
  | takesEnding e rest _ _ => cases completes
  | _ => exact .inl rfl

theorem Carried.only {s r t : State} (h : Carried s r) (only : OnlyHostChanged r t) : OnlyHostChanged s t := by
  cases h with
  | before _ => exact only
  | now c _ => exact only

/-- Settles O3: of a host command's effects only a bare reply carries a status other than DONE. -/
theorem refusedCommandChangesNoBlock : Obligations.RefusedCommandChangesNoBlock :=
  fun c s t host h completes status => by
  cases exec_effects h with
  | nothing eq => exact eq ▸ rfl
  | part event effect => simp [host] at event
  | ticks tick _ _ => simp [tick, Instr.isHostCommand, encodeCommand] at host
  | decodes b dominant character _ => simp [character, Instr.isHostCommand, encodeCommand] at host
  | refused status idle known eq => exact eq ▸ rfl
  | host r carried effect =>
    exact carried.only ((effect.done_or_only completes).resolve_left status)

end Sys2Proof.Machine
end

section
/-! PROOFS. Formats and the check: O5, O6 and O7. -/

namespace Sys2Proof.Machine

/-! ## The check register (R95) -/

/-- The value before a shift: the bit that came in at the bottom says whether the polynomial was added. -/
def crcUnshift (r : Byte) : Byte := if r.getLsbD 0 then ((r ^^^ 0x07#8) >>> 1) ||| 0x80#8 else r >>> 1

theorem crcUnshift_crcShift : ∀ r : Byte, crcUnshift (crcShift r) = r := by decide +kernel

theorem crcShift_injective : Function.Injective crcShift := Function.LeftInverse.injective crcUnshift_crcShift

theorem crcByte_inj {r q a b : Byte} : crcByte r a = crcByte q b ↔ r ^^^ a = q ^^^ b := by
  simp only [crcByte, crcShift_injective.eq_iff]

theorem crcByte_left_inj {r q b : Byte} (h : crcByte r b = crcByte q b) : r = q := by
  simpa using crcByte_inj.1 h

theorem crcByte_right_inj {r a b : Byte} (h : crcByte r a = crcByte r b) : a = b := by
  simpa using crcByte_inj.1 h

theorem crcRun_inj {r q : Byte} {bs : List Byte} (h : crcRun r bs = crcRun q bs) : r = q := by
  induction bs generalizing r q with
  | nil => exact h
  | cons b bs ih => exact crcByte_left_inj (ih h)

/-- Settles O7: each byte run through the register is a bijection of the register, and of the byte. -/
theorem oneWrongByteChangesTheCheck : Obligations.OneWrongByteChangesTheCheck := fun r a b before after h => by
  simp only [crcRun, List.foldl_append, List.foldl_cons] at h
  exact crcByte_right_inj (crcRun_inj h)

/-! ## Headers (R94, R179) -/

theorem getLsbD_encodeH1 (h : Handle) (i : Nat) : (encodeH1 h).getLsbD i = (decide (i < 8) && h.getLsbD i) := by
  simp only [encodeH1, BitVec.getLsbD_extractLsb', Nat.zero_add]

theorem getLsbD_encodeH2 (h : Handle) (a : BitVec 3) (t : Tag) (i : Nat) :
    (encodeH2 h a t).getLsbD i =
      if i < 1 then h.getLsbD (8 + i) else if i < 4 then a.getLsbD (i - 1) else t.getLsbD (i - 4) := by
  have split : (encodeH2 h a t).getLsbD i =
      if i < 1 then (h.extractLsb' 8 1).getLsbD i
      else if i - 1 < 3 then a.getLsbD (i - 1) else t.getLsbD (i - 1 - 3) := by
    show (t ++ a ++ h.extractLsb' 8 1 : BitVec (4 + 3 + 1)).getLsbD i = _
    simp only [BitVec.getLsbD_append]
  rw [split, BitVec.getLsbD_extractLsb']
  grind

theorem getLsbD_headerHandle (h1 h2 : Byte) (i : Nat) :
    (headerHandle h1 h2).getLsbD i = if i < 8 then h1.getLsbD i else decide (i - 8 < 1) && h2.getLsbD (i - 8) := by
  show (h2.extractLsb' 0 1 ++ h1 : BitVec (1 + 8)).getLsbD i = _
  simp only [BitVec.getLsbD_append, BitVec.getLsbD_extractLsb', Nat.zero_add]

/-- Settles O6: the three fields lie side by side in the sixteen bits. -/
theorem headerBytesReadBack : Obligations.HeaderBytesReadBack := by
  refine ⟨fun h a t => ⟨?_, ?_, ?_⟩, fun h1 h2 => ⟨?_, ?_⟩⟩
  · refine BitVec.eq_of_getLsbD_eq fun i hi => ?_
    rw [getLsbD_headerHandle, getLsbD_encodeH1, getLsbD_encodeH2]
    by_cases low : i < 8
    · simp [low]
    · obtain rfl : i = 8 := by omega
      simp
  · refine BitVec.eq_of_getLsbD_eq fun i hi => ?_
    rw [headerAction, BitVec.getLsbD_extractLsb', getLsbD_encodeH2, if_neg (by omega), if_pos (by omega)]
    simp [hi]
  · refine BitVec.eq_of_getLsbD_eq fun i hi => ?_
    rw [headerTag, BitVec.getLsbD_extractLsb', getLsbD_encodeH2, if_neg (by omega), if_neg (by omega)]
    simp [hi]
  · refine BitVec.eq_of_getLsbD_eq fun i hi => ?_
    rw [getLsbD_encodeH1, getLsbD_headerHandle, if_pos hi]
    simp [hi]
  · refine BitVec.eq_of_getLsbD_eq fun i hi => ?_
    rw [getLsbD_encodeH2, getLsbD_headerHandle, headerAction, headerTag]
    simp only [BitVec.getLsbD_extractLsb']
    rcases Nat.lt_or_ge i 1 with bit | bit
    · obtain rfl : i = 0 := by omega
      simp
    · rcases Nat.lt_or_ge i 4 with field | tag
      · rw [if_neg (by omega), if_pos field, decide_eq_true (by omega), Bool.true_and]
        congr 1
        omega
      · rw [if_neg (by omega), if_neg (by omega), decide_eq_true (by omega), Bool.true_and]
        congr 1
        omega

/-! ## Command frames (R167, R180) -/

/-- The two bytes of a host value give it back. -/
theorem halfBytes_append (h : Half) : (h.extractLsb' 8 8 ++ h.extractLsb' 0 8 : Half) = h := by
  refine BitVec.eq_of_getLsbD_eq fun i hi => ?_
  show (h.extractLsb' 8 8 ++ h.extractLsb' 0 8 : BitVec (8 + 8)).getLsbD i = _
  simp only [BitVec.getLsbD_append, BitVec.getLsbD_extractLsb']
  by_cases low : i < 8
  · simp [low]
  · rw [if_neg low, decide_eq_true (by omega), Bool.true_and]
    congr 1
    omega

/-- A STAGE that the Host Port does not refuse carries 1 to 32 data bytes (R173). -/
theorem stage_data_length {e o : Byte} {data : List Byte} (h : portRefusal (.stage e o data) = none) :
    1 ≤ data.length ∧ data.length ≤ 32 := by
  simp only [portRefusal] at h
  split at h
  · cases h
  · split at h
    · cases h
    · omega

theorem decodeCommand_encodeCommand {i : Instr} {code : Byte} {params : List Byte}
    (encoded : encodeCommand i = some (code, params)) (known : portRefusal i = none) :
    decodeCommand code params = .command i := by
  cases i with
  | stage e o data =>
    cases encoded
    exact if_pos (stage_data_length known)
  | configure r h i l =>
    cases encoded
    exact congrArg CommandRead.command (by rw [halfBytes_append, halfBytes_append])
  | define h r l p f n =>
    cases encoded
    exact congrArg CommandRead.command (by rw [halfBytes_append, halfBytes_append, halfBytes_append])
  | amend e s p n f =>
    cases encoded
    exact congrArg CommandRead.command (by rw [halfBytes_append, halfBytes_append])
  | find h =>
    cases encoded
    exact congrArg CommandRead.command (by rw [halfBytes_append])
  | _ =>
    cases encoded
    all_goals rfl

/-- No frame but NOP's begins with 00h, and every one's parameters fit the port's 40 bytes (R167). -/
theorem encodeCommand_fits {i : Instr} {code : Byte} {params : List Byte}
    (encoded : encodeCommand i = some (code, params)) (known : portRefusal i = none) (frame : i ≠ .nop) :
    code ≠ 0#8 ∧ params.length ≤ 40 := by
  cases i with
  | nop => exact absurd rfl frame
  | stage e o data =>
    cases encoded
    have := (stage_data_length known).2
    exact ⟨by decide, by simp only [List.length_cons]; omega⟩
  | _ =>
    cases encoded
    all_goals exact ⟨by decide, by simp [halfBytes]⟩

theorem judgeFrame_append {code : Byte} {params : List Byte} (frame : code ≠ 0#8) (fits : params.length ≤ 40)
    (tail : List Byte) :
    judgeFrame (code :: BitVec.ofNat 8 params.length :: params ++ tail) = .frame code params := by
  have count : (BitVec.ofNat 8 params.length).toNat = params.length := by
    rw [BitVec.toNat_ofNat]
    omega
  simp only [judgeFrame, List.cons_append, frame, if_false, count, Config.maxCount, List.length_append]
  rw [if_neg (by omega), List.take_left]

/-- Settles O5, by command: the layout read back, and the frame's count with it. -/
theorem commandFramesReadBack : Obligations.CommandFramesReadBack := fun _ _ _ tail encoded known =>
  ⟨decodeCommand_encodeCommand encoded known, fun frame =>
    have fits := encodeCommand_fits encoded known frame
    judgeFrame_append fits.1 fits.2 tail⟩

end Sys2Proof.Machine
end

section
/-! PROOFS. Commands of the Attention Unit and the record table: O8, O9, O11, O12 and O14. -/

namespace Sys2Proof.Machine

/-! ## A command that is taken and completes -/

/-- The machine after a command that has done its work on the blocks and completes with this reply. -/
def State.finished (s u : State) (status : Status) (data : List Byte) : State :=
  { u with host := s.host.completed status data }

section
variable (s u : State) (status : Status) (data : List Byte)

@[simp] theorem State.finished_table : (s.finished u status data).table = u.table := rfl
@[simp] theorem State.finished_pool : (s.finished u status data).pool = u.pool := rfl
@[simp] theorem State.finished_claims : (s.finished u status data).claims = u.claims := rfl
@[simp] theorem State.finished_line : (s.finished u status data).line = u.line := rfl
@[simp] theorem State.finished_attention : (s.finished u status data).attention = u.attention := rfl
@[simp] theorem State.finished_host : (s.finished u status data).host = s.host.completed status data := rfl
@[simp] theorem State.finished_entry (e : EntryNo) : (s.finished u status data).entry e = u.entry e := rfl
theorem State.finished_queue : QueueKept u (s.finished u status data) := ⟨rfl, rfl, rfl⟩

end

/-- A host command that its block takes, whose effect ends in a reply. -/
theorem State.runCommand_finished {s u : State} {c : Instr} (h : s.Takes c) {effect : State → State} {status : Status}
    {data : List Byte}
    (he : ∀ x : HostPort, effect { s with host := x } = ({ u with host := x } : State).complete status data) :
    s.runCommand c effect = s.finished u status data := by
  obtain ⟨x, hx, completed, _⟩ := State.runCommand_of_takes h effect
  rw [hx, he x]
  exact congrArg (fun port => { u with host := port }) (completed status data)

/-- A record command that passes R19's checks, whose effect on the entry ends in a reply. -/
theorem State.runRecord_finished {s u : State} {c : Instr} (h : s.Takes c) {late : Bool} {b : Byte} (hb : b.toNat < 128)
    (passes : (s.entry ⟨b.toNat, hb⟩).state.working = true ∨ late = true ∧ (s.entry ⟨b.toNat, hb⟩).state ≠ .vacant)
    {effect : State → EntryNo → State} {status : Status} {data : List Byte}
    (he : ∀ x : HostPort,
      effect { s with host := x } ⟨b.toNat, hb⟩ = ({ u with host := x } : State).complete status data) :
    s.runCommand c (fun s => s.withEntry late b (effect s)) = s.finished u status data := by
  obtain ⟨x, _, inRange, completed, _⟩ := State.runRecord_of_takes h late b effect
  rw [(inRange hb).2.2 passes, he x]
  exact congrArg (fun port => { u with host := port }) (completed status data)

/-! ## One posting (R156, R164) -/

theorem becameNonempty_keep {r : AttentionRecord} (h : r.posting ≠ .closed) (c : CauseSet) :
    becameNonempty r (r.keep c) = true ↔ r.causes = 0#13 ∧ c &&& r.mask ≠ 0#13 := by
  rw [AttentionRecord.keep_eq, if_neg h]
  simp only [becameNonempty, Bool.and_eq_true, beq_iff_eq, bne_iff_ne]
  refine and_congr_right fun empty => ?_
  rw [empty, BitVec.zero_or]

/-- Settles O8, by the posting state of the record. -/
theorem postingKeepsWhatTheMaskNames : Obligations.PostingKeepsWhatTheMaskNames := fun u e c attn => by
  refine ⟨fun d hd => u.post_record_ne c hd, rfl, fun closed => u.post_closed closed attn c, fun opened => ⟨?_, ?_⟩,
    u.post_attn e c⟩
  · rw [AttentionUnit.post_record_self, AttentionRecord.keep_eq, if_neg opened]
  · rw [AttentionUnit.post_list]
    exact if_congr (becameNonempty_keep opened c) rfl rfl

/-! ## Numbers in replies (R180, R181) -/

theorem halfBytes_ofNat (n : Nat) : halfBytes (BitVec.ofNat 16 n) = [BitVec.ofNat 8 (n / 256), BitVec.ofNat 8 (n % 256)] := by
  simp only [halfBytes, List.cons.injEq, and_true]
  constructor
  · apply BitVec.eq_of_toNat_eq
    simp only [BitVec.extractLsb'_toNat, BitVec.toNat_ofNat, Nat.shiftRight_eq_div_pow]
    omega
  · apply BitVec.eq_of_toNat_eq
    simp only [BitVec.extractLsb'_toNat, BitVec.toNat_ofNat, Nat.shiftRight_eq_div_pow]
    omega

theorem zeroExtend_eq_ofNat {w : Nat} (v : BitVec w) (n : Nat) : v.zeroExtend n = BitVec.ofNat n v.toNat := by
  apply BitVec.eq_of_toNat_eq
  simp

theorem handleBytes_eq (h : Handle) :
    handleBytes h = [BitVec.ofNat 8 (h.toNat / 256), BitVec.ofNat 8 (h.toNat % 256)] := by
  rw [handleBytes, zeroExtend_eq_ofNat, halfBytes_ofNat]

theorem causeBytes_eq (c : CauseSet) :
    causeBytes c = [BitVec.ofNat 8 (c.toNat / 256), BitVec.ofNat 8 (c.toNat % 256)] := by
  rw [causeBytes, zeroExtend_eq_ofNat, halfBytes_ofNat]

theorem Permits.code_eq (p : Permits) :
    p.code = BitVec.ofNat 8 (p.storeOk.toNat + 2 * p.claimOk.toNat + 4 * p.retireOk.toNat) := by
  obtain ⟨store, claim, retire⟩ := p
  cases store <;> cases claim <;> cases retire <;> rfl

theorem copiesByte_bits (a b c : Bool) :
    (0#5 ++ BitVec.ofBool a ++ BitVec.ofBool b ++ BitVec.ofBool c : Byte) =
      BitVec.ofNat 8 (c.toNat + 2 * b.toNat + 4 * a.toNat) := by
  cases a <;> cases b <;> cases c <;> rfl

theorem Entry.copiesByte_eq (x : Entry) :
    x.copiesByte = BitVec.ofNat 8 (x.current.isSome.toNat + 2 * x.staged.isSome.toNat + 4 * x.held.isSome.toNat) :=
  copiesByte_bits _ _ _

theorem Entry.flagsByte_eq (x : Entry) :
    x.flagsByte = BitVec.ofNat 8 (x.staleSeen.toNat + 2 * x.claimedSeen.toNat) := by
  unfold Entry.flagsByte
  cases x.staleSeen <;> cases x.claimedSeen <;> rfl

theorem Role.code_eq (r : Role) : r.code = if r = .source then 0x01#8 else 0x02#8 := by
  cases r <;> rfl

/-! ## DESCRIBE (R21) -/

/-- Settles O14: the description is the nineteen bytes, number by number. -/
theorem describeReportsTheFields : Obligations.DescribeReportsTheFields := fun b hb s takes present => by
  have replies := State.runRecord_finished (u := s) takes (late := true) hb (.inr ⟨rfl, present⟩)
    (effect := fun s e => s.complete .done (s.description e)) (data := s.description ⟨b.toNat, hb⟩) fun _ => rfl
  refine congrArg _ (replies.trans ?_)
  have number : BitVec.ofNat 8 b.toNat = b := by simp
  simp only [State.finished, State.replied, State.description, number, handleBytes_eq, causeBytes_eq, numberBytes,
    halfBytes_ofNat, Permits.code_eq, Entry.copiesByte_eq, Entry.flagsByte_eq, Role.code_eq, zeroExtend_eq_ofNat,
    List.cons_append, List.nil_append] <;> rfl

/-! ## DEFINE (R15, R16) -/

theorem Permits.any_ofByte (b : Byte) : (Permits.ofByte b).any = false ↔ b.extractLsb' 0 3 = 0#3 := by
  have bits : b.extractLsb' 0 3 = 0#3 ↔ b.getLsbD 0 = false ∧ b.getLsbD 1 = false ∧ b.getLsbD 2 = false := by
    constructor
    · intro h
      have bit : ∀ i : Nat, i < 3 → b.getLsbD i = false := fun i hi => by
        have := congrArg (fun v => v.getLsbD i) h
        simpa [hi] using this
      exact ⟨bit 0 (by omega), bit 1 (by omega), bit 2 (by omega)⟩
    · rintro ⟨h0, h1, h2⟩
      refine BitVec.eq_of_getLsbD_eq fun i hi => ?_
      obtain rfl | rfl | rfl : i = 0 ∨ i = 1 ∨ i = 2 := by omega
      · simpa using h0
      · simpa using h1
      · simpa using h2
  rw [bits]
  simp [Permits.any, Permits.ofByte, and_assoc]

theorem defineArgumentsOk_iff (handle : Half) (role len permits : Byte) (mask : Half) :
    defineArgumentsOk handle role len permits mask = true ↔ DefineArgumentsOk handle role len permits mask := by
  unfold DefineArgumentsOk
  rw [← Permits.any_ofByte]
  simp only [defineArgumentsOk, maskOk, Role.ofCode]
  by_cases source : role = 0x01#8
  · simp [source, Permits.ofByte]
    grind
  · by_cases mirror : role = 0x02#8
    · simp [mirror, Permits.any, Permits.ofByte]
      grind
    · simp [source, mirror]

/-- Settles O11: R15's checks in their order, then R16's entry, index and attention record. -/
theorem defineRefusesOrMakesADraft : Obligations.DefineRefusesOrMakesADraft := by
  intro handle role len permits limit mask s takes
  have finishes : ∀ {u : State} {status : Status} {data : List Byte},
      (∀ x : HostPort, State.define { s with host := x } handle role len permits limit mask =
        ({ u with host := x } : State).complete status data) →
      exec (.define handle role len permits limit mask) s = .next (s.finished u status data) := fun he =>
    congrArg _ (State.runCommand_finished takes he)
  refine ⟨fun bad => ?_, fun args used => ?_, fun args fresh full => ?_, fun r e args fresh vacant lowest named => ?_⟩
  · rw [← defineArgumentsOk_iff, Bool.not_eq_true] at bad
    exact finishes (u := s) fun x => if_pos bad
  · rw [← defineArgumentsOk_iff] at args
    have used : (s.table.lookup (handle.truncate 9)).isSome = true := Option.isSome_iff_ne_none.2 used
    exact finishes (u := s) fun x => by simp [State.define, args, used]
  · rw [← defineArgumentsOk_iff] at args
    have none := (TableController.firstVacant_eq_none s.table).2 full
    exact finishes (u := s) fun x => by simp [State.define, args, fresh, none]
  · rw [← defineArgumentsOk_iff] at args
    have first := (TableController.firstVacant_eq_some s.table e).2 ⟨vacant, lowest⟩
    refine ⟨_, finishes (u := s.defineEntry e handle role len permits limit mask) (status := .done)
      (data := [BitVec.ofNat 8 e.val]) fun x => ?_, rfl, ?_, ?_, ?_, ?_, ?_, ?_, rfl⟩
    · simp [State.define, args, fresh, first, State.defineEntry, State.complete] <;> rfl
    · have decoded : (Role.ofCode role).getD .source = r := by
        rcases named with ⟨rfl, rfl⟩ | ⟨rfl, rfl⟩ <;> rfl
      refine (State.entry_setEntry_self s e _).trans ?_
      rw [definedEntry, decoded]
      rfl
    · exact fun d hd => State.entry_setEntry_ne s _ hd
    · exact TableController.lookup_setIndex_self _ _ _
    · exact fun g hg => TableController.lookup_setIndex_ne _ _ hg
    · exact AttentionUnit.record_setRecord_self _ _ _
    · exact fun d hd => AttentionUnit.record_setRecord_ne _ _ hd

/-! ## AMEND (R17, R18, R61) -/

theorem amendArgumentsOk_iff (x : Entry) (selector permits : Byte) (mask : Half) :
    amendArgumentsOk x selector permits mask = true ↔ AmendArgumentsOk x selector permits mask := by
  unfold AmendArgumentsOk
  rw [← Permits.any_ofByte]
  simp only [amendArgumentsOk, selectorOk, maskOk, Bool.and_eq_true, Bool.not_eq_true', decide_eq_true_eq,
    Bool.and_eq_false_iff, decide_eq_false_iff_not, Bool.not_eq_false', Permits.ofByte]
  grind

theorem State.amendEntry_record (s : State) (e d : EntryNo) (selector permits : Byte) (mask limit : Half) :
    (s.amendEntry e selector permits mask limit).attention.record d =
      if d = e ∧ selector.getLsbD 1 = true then { s.attention.record e with mask := storedMask mask }
      else s.attention.record d := by
  rw [State.amendEntry_eq]
  dsimp only
  split
  · next names =>
    rw [AttentionUnit.record_setRecord]
    exact if_congr (by simp [names]) rfl rfl
  · next names => rw [if_neg fun h => names h.2]

/-- Settles O12: each field is written where its selector bit is set. -/
theorem amendWritesTheNamedFields : Obligations.AmendWritesTheNamedFields := by
  intro b selector permits mask limit hb s takes working
  constructor
  · intro bad
    rw [← amendArgumentsOk_iff] at bad
    exact congrArg _ (State.runRecord_finished (u := s) takes hb (.inl working) fun x => if_neg bad)
  · intro args
    rw [← amendArgumentsOk_iff] at args
    have runs : exec (.amend b selector permits mask limit) s =
        .next (s.finished (s.amendEntry ⟨b.toNat, hb⟩ selector permits mask limit) .done []) := by
      refine congrArg Host.Outcome.next (State.runRecord_finished takes hb (.inl working) fun x => ?_)
      refine (if_pos args).trans ?_
      simp only [State.amendEntry_eq]
      rfl
    refine ⟨_, runs, rfl, ?_, ?_, fun d hd => ?_, ⟨fun d hd => ?_, ?_, ?_, ?_⟩, ?_⟩
    · show (s.amendEntry ⟨b.toNat, hb⟩ selector permits mask limit).entry _ = _
      simp only [State.amendEntry_eq, State.entry, TableController.entry_setEntry_self, Entry.amend, Permits.ofByte]
      cases selector.getLsbD 2 <;> rfl
    · refine (State.amendEntry_record s _ _ selector permits mask limit).trans ?_
      cases selector.getLsbD 1 <;> simp [storedMask, CauseSet.retiredOnly]
    · exact (State.amendEntry_record s _ d selector permits mask limit).trans (if_neg fun h => hd h.1)
    · show (s.amendEntry ⟨b.toNat, hb⟩ selector permits mask limit).entry d = _
      simp only [State.amendEntry_eq]
      exact State.entry_setEntry_ne s _ hd
    · simp only [State.finished, State.amendEntry_eq, TableController.setEntry_index]
    · simp only [State.finished, State.amendEntry_eq, TableController.setEntry_inFlight]
    · simp only [State.finished, State.amendEntry_eq, TableController.setEntry_pin]
    · simp only [State.finished, State.amendEntry_eq]
      split <;> rfl

/-! ## TAKE (R158, R159) -/

theorem AttentionUnit.takeReply_eq (u : AttentionUnit) (e : EntryNo) :
    u.takeReply e = [BitVec.ofNat 8 e.val, BitVec.ofNat 8 ((u.record e).handle.toNat / 256),
      BitVec.ofNat 8 ((u.record e).handle.toNat % 256), BitVec.ofNat 8 ((u.record e).causes.toNat / 256),
      BitVec.ofNat 8 ((u.record e).causes.toNat % 256),
      if (u.record e).posting = .ending then 0x01#8 else 0x00#8] := by
  simp only [AttentionUnit.takeReply, handleBytes_eq, causeBytes_eq, List.cons_append, List.nil_append]

/-- What TAKE makes of a list that is not empty (R158, R159). -/
theorem State.take_of_cons {s : State} {e : EntryNo} {rest : List EntryNo} (list : s.attention.list = e :: rest) :
    s.take =
      if (s.attention.record e).posting = .ending then
        { s with attention := s.attention.takeHead e rest }.setWork (.vacate e (s.attention.takeReply e))
      else { s with attention := s.attention.takeHead e rest }.complete .done (s.attention.takeReply e) := by
  simp only [State.take, list]

/-- Settles O9, by the list, by the posting state of its head, and by the TAKE that waits. -/
theorem takeReturnsTheHeadOfTheList : Obligations.TakeReturnsTheHeadOfTheList := by
  refine ⟨fun s takes empty => ?_, fun s e rest p takes list posting => ?_, fun s e reply work => ?_⟩
  · refine congrArg _ (State.runCommand_eq_replied takes fun x => ?_)
    simp only [State.take, empty]
  · obtain ⟨x, taken, completed, outstanding⟩ := State.runCommand_of_takes takes State.take
    have head := State.take_of_cons (s := { s with host := x }) list
    refine ⟨_, s.attention.takeReply e, congrArg Host.Outcome.next (taken.trans head), by rw [AttentionUnit.takeReply_eq, posting], ?_⟩
    subst posting
    split
    · next ending =>
      refine ⟨outstanding _, rfl, ?_, fun d hd => ?_, rfl, rfl, rfl⟩
      · exact (AttentionUnit.takeHead_record_self _ _ _).trans (by rw [if_pos ending])
      · exact AttentionUnit.takeHead_record_ne _ _ hd
    · next ending =>
      refine ⟨completed _ _, rfl, ?_, fun d hd => ?_, rfl, rfl, rfl⟩
      · exact (AttentionUnit.takeHead_record_self _ _ _).trans (by rw [if_neg ending])
      · exact AttentionUnit.takeHead_record_ne _ _ hd
  · have vacates : exec .takeEndedVacate s = .next ((s.vacate e).complete .done reply) := by
      show execTakeEndedVacate s = _
      rw [execTakeEndedVacate, work]
    refine ⟨_, vacates, ?_, ?_, ⟨fun d hd => ?_, rfl, rfl, rfl⟩, rfl, rfl⟩
    · rw [State.complete_entry, State.entry_vacate_self]
      rfl
    · rw [State.complete_entry, State.entry_vacate_self]
      rfl
    · exact State.entry_vacate_ne s hd

end Sys2Proof.Machine
end

section
/-! PROOFS. The data of a record: STAGE, COMMIT, DISCARD and READ (O15 to O19). -/

namespace Sys2Proof.Machine

/-! ## A record command in a working entry -/

/-- A record command of an entry in DRAFT, LIVE or STALE that ends in a reply. -/
theorem exec_finished {s u : State} {c : Instr} (takes : s.Takes c) {late : Bool} {b : Byte} (hb : b.toNat < 128)
    (working : (s.entry ⟨b.toNat, hb⟩).state.working = true) {effect : State → EntryNo → State}
    (runs : exec c s = .next (s.runCommand c fun s => s.withEntry late b (effect s))) {status : Status} {data : List Byte}
    (he : ∀ x : HostPort,
      effect { s with host := x } ⟨b.toNat, hb⟩ = ({ u with host := x } : State).complete status data) :
    exec c s = .next (s.finished u status data) :=
  runs.trans (congrArg Host.Outcome.next (State.runRecord_finished takes hb (.inl working) he))

/-! ## STAGE (R35 to R37) -/

/-- The data bytes of a STAGE that its block takes are 1 to 32. -/
theorem State.Takes.stage_data {s : State} {b offset : Byte} {data : List Byte} (takes : s.Takes (.stage b offset data)) :
    1 ≤ data.length ∧ data.length ≤ 32 := stage_data_length takes.1

/-- Bytes written into a copy of their own are there, and every byte elsewhere reads as before. -/
theorem BytesHold.writeRecord {p : CellPool} (ok : Memory.wf p.bytes = true) {cells : List CellNo} (nodup : cells.Nodup)
    {o : Nat} {data : List Byte} (fits : o + data.length ≤ 16 * cells.length) {t : State}
    (pool : t.pool.bytes = (CellPool.writeRecord cells p o data).bytes) : BytesHold cells o data t := fun i hi => by
  have peek : t.pool.peek cells (o + i) = (CellPool.writeRecord cells p o data).peek cells (o + i) := by
    simp only [CellPool.peek, pool]
  rw [peek, CellPool.peek_writeRecord ok nodup (by omega), if_pos (by omega), Nat.add_sub_cancel_left]

theorem BytesKeptBut.writeRecord {s t : State} (ok : MemoryOk s) {cells : List CellNo} {o : Nat} {data : List Byte}
    (pool : t.pool.bytes = (CellPool.writeRecord cells s.pool o data).bytes) :
    BytesKeptBut cells o data.length s t := fun a outside => by
  rw [pool]
  exact CellPool.read_writeRecord_other ok outside

theorem segmentCount_fits (n : Nat) : n ≤ 16 * segmentCount n := by
  simp only [segmentCount]
  omega

/-- The bytes of an entry lie within the cells of each of its copies (R3, R33). -/
theorem Entry.length_le_cells {x : Entry} {cells : List CellNo} (size : cells.length = x.segments) :
    x.length ≤ 16 * cells.length := by
  rw [size]
  exact segmentCount_fits x.length

section
variable {s : State} {e : EntryNo} {offset : Byte} {data : List Byte}

theorem State.stage_mirror (role : (s.entry e).role = .mirror) : s.stage e offset data = s.complete .wrongRole [] :=
  if_pos role

theorem State.stage_beyond (role : (s.entry e).role = .source)
    (beyond : (s.entry e).length < offset.toNat + data.length) : s.stage e offset data = s.complete .badArgument [] := by
  simp [State.stage, role, beyond]

theorem State.stage_noCells (role : (s.entry e).role = .source) (size : 1 ≤ data.length ∧ data.length ≤ 32)
    (fits : offset.toNat + data.length ≤ (s.entry e).length) (staged : (s.entry e).staged = none)
    (few : s.pool.free.length < (s.entry e).segments) : s.stage e offset data = s.complete .noCells [] := by
  have none : s.pool.allocate (s.entry e).segments = none := CellPool.allocate_eq_none.2 few
  unfold State.stage
  rw [if_neg (by simp [role]), if_neg (by omega)]
  simp only [staged, none]

theorem State.stage_inPlace (role : (s.entry e).role = .source) (size : 1 ≤ data.length ∧ data.length ≤ 32)
    (fits : offset.toNat + data.length ≤ (s.entry e).length) {cells : List CellNo}
    (staged : (s.entry e).staged = some cells) :
    s.stage e offset data =
      { s with pool := CellPool.writeRecord cells s.pool offset.toNat data }.complete .done [] := by
  unfold State.stage
  rw [if_neg (by simp [role]), if_neg (by omega)]
  simp only [staged]

theorem State.stage_first (role : (s.entry e).role = .source) (size : 1 ≤ data.length ∧ data.length ≤ 32)
    (fits : offset.toNat + data.length ≤ (s.entry e).length) (staged : (s.entry e).staged = none) {cells : List CellNo}
    {p : CellPool} (takes : s.pool.allocate (s.entry e).segments = some (cells, p)) :
    s.stage e offset data = { s.setEntry e { s.entry e with staged := some cells } with
      pool := CellPool.writeRecord cells (s.stagedFill e cells p) offset.toNat data }.complete .done [] := by
  unfold State.stage
  rw [if_neg (by simp [role]), if_neg (by omega)]
  simp only [staged, takes]

end

/-- Settles O16: R35's checks in their order, and a later STAGE that writes in place. -/
theorem stageRefusesOrWritesInPlace : Obligations.StageRefusesOrWritesInPlace := by
  intro b offset data hb s takes working
  have size := takes.stage_data
  have finishes : ∀ (u : State) {status : Status} {reply : List Byte}, (∀ x : HostPort,
      State.stage { s with host := x } ⟨b.toNat, hb⟩ offset data =
        ({ u with host := x } : State).complete status reply) →
      exec (.stage b offset data) s = .next (s.finished u status reply) := fun u _ _ he =>
    exec_finished (late := false) takes hb working (effect := fun s e => s.stage e offset data) rfl he
  refine ⟨fun role => ?_, fun role beyond => ?_, fun role fits staged few => ?_,
    fun cells role fits staged memory once copies => ?_⟩
  · exact finishes s fun x => State.stage_mirror (s := { s with host := x }) role
  · exact finishes s fun x => State.stage_beyond (s := { s with host := x }) role beyond
  · exact finishes s fun x => State.stage_noCells (s := { s with host := x }) role size fits staged few
  · have nodup := (Entry.staged_sublist staged).nodup (once.cells_nodup _)
    have within := Entry.length_le_cells (copies.sizes.2.1 cells staged)
    refine ⟨_, finishes { s with pool := CellPool.writeRecord cells s.pool offset.toNat data } fun x =>
      State.stage_inPlace (s := { s with host := x }) role size fits staged, rfl, ?_, ?_, ?_⟩
    · exact .writeRecord memory nodup (by omega) rfl
    · exact .writeRecord memory rfl
    · show _ = { s with host := _, pool := { s.pool with bytes := (CellPool.writeRecord cells s.pool _ data).bytes } }
      have free := CellPool.writeRecord_free s.pool cells offset.toNat data
      simp only [State.finished]
      rw [← free]

/-- What a first STAGE's cells hold before its own bytes are written (R30, R36). -/
theorem State.peek_stagedFill {s : State} (memory : MemoryOk s) {e : EntryNo} (copies : EntryCopiesOk (s.entry e))
    {cells : List CellNo} (size : cells.length = (s.entry e).segments) (nodup : cells.Nodup) {p : CellPool}
    (bytes : p.bytes = s.pool.bytes) {o : Nat} (inside : o < 16 * cells.length) :
    (s.stagedFill e cells p).peek cells o =
      match (s.entry e).current with
      | some source => s.pool.peek source o
      | none => 0x00#8 := by
  have ok : Memory.wf p.bytes = true := by rw [bytes]; exact memory
  unfold State.stagedFill
  cases current : (s.entry e).current with
  | some source =>
    refine (CellPool.peek_copyFrom ok nodup ((copies.sizes.1 source current).trans size.symm) inside).trans ?_
    simp only [CellPool.peek, bytes]
  | none => exact CellPool.peek_zero ok nodup inside

theorem State.stagedFill_keeps {s : State} (memory : MemoryOk s) {e : EntryNo} {cells : List CellNo}
    {p : CellPool} (bytes : p.bytes = s.pool.bytes) (size : ∀ source, (s.entry e).current = some source →
      source.length = cells.length) {a : Nat}
    (outside : ∀ o : Nat, o < 16 * cells.length → recordAddress cells o ≠ some a) :
    Memory.read (s.stagedFill e cells p).bytes a = Memory.read s.pool.bytes a := by
  have ok : Memory.wf p.bytes = true := by rw [bytes]; exact memory
  unfold State.stagedFill
  split
  · next source current =>
    rw [CellPool.copyFrom, CellPool.read_writeRecord_other ok, bytes]
    intro x _ hx
    simp only [CellPool.readRecord_length, Config.cellBytes, size source current] at hx
    exact outside x (by omega)
  · rw [CellPool.zero, CellPool.read_writeRecord_other ok, bytes]
    intro x _ hx
    simp only [List.length_replicate, Config.cellBytes] at hx
    exact outside x (by omega)

theorem State.stagedFill_wf {s : State} (memory : MemoryOk s) (e : EntryNo) (cells : List CellNo)
    {p : CellPool} (bytes : p.bytes = s.pool.bytes) : Memory.wf (s.stagedFill e cells p).bytes = true := by
  have ok : Memory.wf p.bytes = true := by rw [bytes]; exact memory
  unfold State.stagedFill
  split
  · exact CellPool.wf_copyFrom ok _ _
  · exact CellPool.wf_zero ok _

theorem State.stagedFill_free (s : State) (e : EntryNo) (cells : List CellNo) (p : CellPool) :
    (s.stagedFill e cells p).free = p.free := by
  unfold State.stagedFill
  split
  · exact CellPool.copyFrom_free _ _ _
  · exact CellPool.zero_free _ _

/-- Settles O15: the cells come from the head of the free list, are filled from the current copy, and take the host's
bytes over that. -/
theorem firstStageCopiesAndWrites : Obligations.FirstStageCopiesAndWrites := by
  intro b offset data hb s takes working role fits staged enough memory once copies
  set e : EntryNo := ⟨b.toNat, hb⟩
  let cells := s.pool.free.take (s.entry e).segments
  let p : CellPool := { s.pool with free := s.pool.free.drop (s.entry e).segments }
  have allocated : s.pool.allocate (s.entry e).segments = some (cells, p) :=
    CellPool.allocate_eq_some.2 ⟨enough, rfl, rfl⟩
  have size : cells.length = (s.entry e).segments := List.length_take_of_le enough
  have nodup : cells.Nodup := (List.take_sublist _ _).nodup once.free_nodup
  have filled := State.stagedFill_wf memory e cells (p := p) rfl
  have within : (s.entry e).length ≤ 16 * cells.length := Entry.length_le_cells size
  have runs : exec (.stage b offset data) s = .next (s.finished { s.setEntry e { s.entry e with staged := some cells } with
      pool := CellPool.writeRecord cells (s.stagedFill e cells p) offset.toNat data } .done []) :=
    exec_finished (late := false) takes hb working (effect := fun s e => s.stage e offset data) rfl fun x =>
      State.stage_first (s := { s with host := x }) role takes.stage_data fits staged allocated
  refine ⟨_, cells, runs, rfl, rfl, State.entry_setEntry_self s e _,
    ⟨fun d hd => State.entry_setEntry_ne s _ hd, rfl, rfl, rfl⟩, ?_, .writeRecord filled nodup (by omega) rfl,
    fun o inside apart => ?_, fun a outside => ?_, rfl⟩
  · exact (CellPool.writeRecord_free _ _ _ _).trans (State.stagedFill_free _ _ _ _)
  · have inside : o < 16 * cells.length := by rw [size]; exact inside
    refine Eq.trans ?_ (State.peek_stagedFill memory copies size nodup (p := p) rfl inside)
    refine (CellPool.peek_writeRecord filled nodup inside).trans (if_neg ?_)
    omega
  · have outside : ∀ o : Nat, o < 16 * cells.length → recordAddress cells o ≠ some a := fun o ho =>
      outside o (Nat.zero_le _) (by rw [size] at ho; omega)
    refine Eq.trans ?_ (State.stagedFill_keeps memory (p := p) rfl
      (fun source current => (copies.sizes.1 source current).trans size.symm) outside)
    exact CellPool.read_writeRecord_other filled fun x _ hx => outside x (by omega)

/-! ## COMMIT (R38 to R40) -/

section
variable {s : State} {e : EntryNo}

theorem State.commit_mirror (role : (s.entry e).role = .mirror) : s.commit e = s.complete .wrongRole [] := if_pos role

theorem State.commit_unstaged (role : (s.entry e).role = .source) (staged : (s.entry e).staged = none) :
    s.commit e = s.complete .wrongState [] := by
  simp [State.commit, role, staged]

theorem State.commit_claimed (role : (s.entry e).role = .source) (staged : (s.entry e).staged ≠ none)
    (claimed : s.claims.blocksCommit e = true) : s.commit e = s.complete .claimed [] := by
  obtain ⟨cells, staged⟩ := Option.ne_none_iff_exists'.1 staged
  simp [State.commit, role, staged, claimed]

theorem State.commit_accepted (role : (s.entry e).role = .source) {cells : List CellNo}
    (staged : (s.entry e).staged = some cells) (unclaimed : s.claims.blocksCommit e = false) :
    s.commit e = (s.commitEntry e cells).complete .done [((s.entry e).version + 1).zeroExtend 8] := by
  simp [State.commit, role, staged, unclaimed]

theorem State.currentPinned_iff : s.currentPinned e = true ↔ ∃ owner : PinOwner, s.table.pin = some ⟨e, .current, owner⟩ := by
  unfold State.currentPinned
  split
  · next p pin =>
    rw [pin, decide_eq_true_eq]
    obtain ⟨d, kind, owner⟩ := p
    simp
  · next none => simp [none]

theorem State.commitEntry_of_host (cells : List CellNo) (x : HostPort) :
    ({ s with host := x } : State).commitEntry e cells = { s.commitEntry e cells with host := x } := by
  by_cases free : (s.entry e).current = none ∨ s.currentPinned e = false
  · rw [State.commitEntry_unpinned free, State.commitEntry_unpinned (s := { s with host := x }) free]
    rfl
  · rw [not_or] at free
    obtain ⟨old, current⟩ := Option.ne_none_iff_exists'.1 free.1
    have pinned : s.currentPinned e = true := by simpa using free.2
    rw [State.commitEntry_pinned current pinned, State.commitEntry_pinned (s := { s with host := x }) current pinned]
    rfl

theorem State.commitEntry_only (cells : List CellNo) :
    s.commitEntry e cells = { s with
      pool := (s.commitEntry e cells).pool
      table := { (s.commitEntry e cells).table with index := s.table.index, inFlight := s.table.inFlight } } := by
  by_cases free : (s.entry e).current = none ∨ s.currentPinned e = false
  · rw [State.commitEntry_unpinned free]
    rfl
  · rw [not_or] at free
    obtain ⟨old, current⟩ := Option.ne_none_iff_exists'.1 free.1
    rw [State.commitEntry_pinned current (by simpa using free.2)]
    rfl

theorem State.commitEntry_entry_ne {d : EntryNo} (cells : List CellNo) (hd : d ≠ e) :
    (s.commitEntry e cells).entry d = s.entry d := by
  obtain ⟨_, held, entries⟩ := s.commitEntry_table e cells
  simp only [State.entry, TableController.entry, entries]
  exact State.entry_setEntry_ne s _ hd

end

/-- Settles O17: R38's refusals, then the staged copy current; the pin decides what becomes of the old one. -/
theorem commitMakesTheStagedCopyCurrent : Obligations.CommitMakesTheStagedCopyCurrent := by
  intro b hb s takes working claims
  set e : EntryNo := ⟨b.toNat, hb⟩
  have finishes : ∀ (u : State) {status : Status} {reply : List Byte}, (∀ x : HostPort,
      State.commit { s with host := x } e = ({ u with host := x } : State).complete status reply) →
      exec (.commit b) s = .next (s.finished u status reply) := fun u _ _ he =>
    exec_finished (late := false) takes hb working (effect := State.commit) rfl he
  refine ⟨fun role => ?_, fun role staged => ?_, fun role staged claimed => ?_, fun cells role staged unclaimed => ?_⟩
  · exact finishes s fun x => State.commit_mirror (s := { s with host := x }) role
  · exact finishes s fun x => State.commit_unstaged (s := { s with host := x }) role staged
  · have blocked : s.claims.blocksCommit e = true := (claims.blocksCommit_eq e).2 claimed
    exact finishes s fun x => State.commit_claimed (s := { s with host := x }) role staged blocked
  · have free : s.claims.blocksCommit e = false := by
      rw [Bool.eq_false_iff, ne_eq, claims.blocksCommit_eq]
      simpa using unclaimed
    refine ⟨_, finishes (s.commitEntry e cells) (fun x => (State.commit_accepted (s := { s with host := x }) role
        staged free).trans (congrArg (fun u : State => u.complete _ _) (State.commitEntry_of_host cells x))), rfl,
      fun d hd => State.commitEntry_entry_ne cells hd, ?_, fun old owner current pin => ?_, fun unpinned => ?_, ?_⟩
    · show (s.commitEntry e cells).pool.bytes = s.pool.bytes
      rw [State.commitEntry_bytes]
    · have eq := State.commitEntry_pinned current (State.currentPinned_iff.2 ⟨owner, pin⟩) cells
      simp only [State.finished, eq]
      refine ⟨State.entry_setEntry_self s e _, ?_, trivial⟩
      rw [pin]
      rfl
    · have free : (s.entry e).current = none ∨ s.currentPinned e = false := unpinned.imp_right fun h => by
        rw [Bool.eq_false_iff, ne_eq, State.currentPinned_iff]
        simpa using h
      have eq := State.commitEntry_unpinned free cells
      simp only [State.finished, eq]
      exact ⟨State.entry_setEntry_self s e _, rfl, rfl⟩
    · exact congrArg (fun u => s.finished u .done [((s.entry e).version + 1).zeroExtend 8])
        (State.commitEntry_only (s := s) (e := e) cells)

/-! ## DISCARD (R41) -/

theorem State.discard_mirror {s : State} {e : EntryNo} (role : (s.entry e).role = .mirror) :
    s.discard e = s.complete .wrongRole [] := if_pos role

theorem State.discard_unstaged {s : State} {e : EntryNo} (role : (s.entry e).role = .source)
    (staged : (s.entry e).staged = none) : s.discard e = s.complete .wrongState [] := by
  simp [State.discard, role, staged]

theorem State.discard_staged {s : State} {e : EntryNo} (role : (s.entry e).role = .source) {cells : List CellNo}
    (staged : (s.entry e).staged = some cells) :
    s.discard e = { s with
      table := s.table.setEntry e { s.entry e with staged := none }
      pool := s.pool.release cells }.complete .done [] := by
  simp [State.discard, role, staged, State.freeStaged_eq]

/-- Settles O18: R41's refusals, or the staged copy freed. -/
theorem discardFreesTheStagedCopy : Obligations.DiscardFreesTheStagedCopy := by
  intro b hb s takes working
  set e : EntryNo := ⟨b.toNat, hb⟩
  have finishes : ∀ (u : State) {status : Status} {reply : List Byte}, (∀ x : HostPort,
      State.discard { s with host := x } e = ({ u with host := x } : State).complete status reply) →
      exec (.discard b) s = .next (s.finished u status reply) := fun u _ _ he =>
    exec_finished (late := false) takes hb working (effect := State.discard) rfl he
  refine ⟨fun role => ?_, fun role staged => ?_, fun cells role staged => ?_⟩
  · exact finishes s fun x => State.discard_mirror (s := { s with host := x }) role
  · exact finishes s fun x => State.discard_unstaged (s := { s with host := x }) role staged
  · exact ⟨_, finishes { s with
        table := s.table.setEntry e { s.entry e with staged := none }, pool := s.pool.release cells }
        fun x => State.discard_staged (s := { s with host := x }) role staged, rfl, State.entry_setEntry_self s e _,
      ⟨fun d hd => State.entry_setEntry_ne s _ hd, rfl, rfl, rfl⟩, rfl⟩

/-! ## READ (R42) -/

theorem State.read_refused {s : State} {e : EntryNo} {offset count : Byte}
    (bad : count.toNat = 0 ∨ 32 < count.toNat ∨ (s.entry e).length < offset.toNat + count.toNat) :
    s.read e offset count = s.complete .badArgument [] := if_pos bad

theorem State.read_noData {s : State} {e : EntryNo} {offset count : Byte}
    (good : ¬ (count.toNat = 0 ∨ 32 < count.toNat ∨ (s.entry e).length < offset.toNat + count.toNat))
    (current : (s.entry e).current = none) : s.read e offset count = s.complete .noData [] := by
  simp only [State.read, good, if_false, current]

theorem State.read_current {s : State} {e : EntryNo} {offset count : Byte}
    (good : ¬ (count.toNat = 0 ∨ 32 < count.toNat ∨ (s.entry e).length < offset.toNat + count.toNat))
    {cells : List CellNo} (current : (s.entry e).current = some cells) :
    s.read e offset count = s.complete .done ((s.entry e).version.zeroExtend 8 :: (s.entry e).state.code ::
      (s.entry e).flagsByte :: s.pool.readRecord cells offset.toNat count.toNat) := by
  simp only [State.read, good, if_false, current]

/-- Settles O19: R42's refusals, or the reply; an entry with a current copy that a READ may name is LIVE or STALE. -/
theorem readReturnsTheCurrentCopy : Obligations.ReadReturnsTheCurrentCopy := by
  intro b offset count hb s takes working
  set e : EntryNo := ⟨b.toNat, hb⟩
  have finishes : ∀ {status : Status} {reply : List Byte}, (∀ x : HostPort,
      State.read { s with host := x } e offset count = ({ s with host := x } : State).complete status reply) →
      exec (.read b offset count) s = .next (s.replied status reply) := fun he =>
    exec_finished (late := false) takes hb working (effect := fun s e => s.read e offset count) rfl he
  refine ⟨fun bad => ?_, fun least most fits => ?_⟩
  · exact finishes fun x => State.read_refused (s := { s with host := x }) bad
  · have good : ¬ (count.toNat = 0 ∨ 32 < count.toNat ∨ (s.entry e).length < offset.toNat + count.toNat) := by omega
    refine ⟨fun current => ?_, fun cells current copies => ?_⟩
    · exact finishes fun x => State.read_noData (s := { s with host := x }) good current
    · have code : (s.entry e).state.code = if (s.entry e).state = .stale then 0x03#8 else 0x02#8 := by
        cases state : (s.entry e).state with
        | draft => simp [(copies.draft state).1] at current
        | live => rfl
        | stale => rfl
        | _ => simp [state, EntryState.working] at working
      have reply : ∀ x : HostPort, State.read { s with host := x } e offset count =
          ({ s with host := x } : State).complete .done ((s.entry e).version.zeroExtend 8 :: (s.entry e).state.code ::
            (s.entry e).flagsByte :: s.pool.readRecord cells offset.toNat count.toNat) := fun x =>
        State.read_current (s := { s with host := x }) good current
      refine (finishes reply).trans ?_
      rw [code, Entry.flagsByte_eq]
      rfl

end Sys2Proof.Machine
end

section
/-! PROOFS. Retiring and claims by the host, and CONFIGURE (O20 to O24). -/

namespace Sys2Proof.Machine

/-! ## RETIRE (R22 to R27) -/

theorem State.teardown_of_host (s : State) (e : EntryNo) (x : HostPort) :
    ({ s with host := x } : State).teardown e = { s.teardown e with host := x } := by
  rw [State.teardown_eq, State.teardown_eq]
  rfl

section
variable {s : State} {e : EntryNo}

theorem State.retire_working (working : (s.entry e).state.working = true) : s.retire e = s.retireRecord e := by
  unfold State.retire
  cases state : (s.entry e).state <;> simp_all [EntryState.working]

theorem State.retire_unmarked (working : (s.entry e).state.working = true) (mark : s.table.inFlight ≠ some e) :
    s.retire e = (((s.teardown e).clear e).vacate e).complete .done [0x00#8] :=
  (State.retire_working working).trans (if_neg mark)

theorem State.retire_marked (working : (s.entry e).state.working = true) (mark : s.table.inFlight = some e) :
    s.retire e = ((s.setEntry e { s.entry e with state := .retiring }).clear e).complete .done [0x04#8] :=
  (State.retire_working working).trans (if_pos mark)

theorem State.retire_retiring (state : (s.entry e).state = .retiring) : s.retire e = s.complete .done [0x04#8] := by
  simp [State.retire, state, EntryState.code]

theorem State.retire_ended (state : (s.entry e).state = .ended) :
    s.retire e = ((s.clear e).vacate e).complete .done [0x00#8] := by
  simp [State.retire, state, EntryState.code]

end

/-- An entry torn down, its attention record cleared, and VACANT (R23). -/
def State.retired (s : State) (e : EntryNo) : State := ((s.teardown e).clear e).vacate e

/-- After a teardown the entry's handle is in no pair of the Handle Index (R22). -/
theorem IndexOk.teardown_gone {s : State} (ok : IndexOk s) {e : EntryNo} (indexed : (s.entry e).state.indexed = true) :
    (s.teardown e).table.lookup (s.entry e).handle = none := by
  rw [Option.eq_none_iff_forall_ne_some]
  intro d held
  obtain ⟨before, other⟩ := (ok.teardown_lookup e d _).1 held
  exact other (Option.some.inj (before.symm.trans ((ok _ _).2 ⟨indexed, rfl⟩)))

/-- A teardown leaves every other handle where it was (R22). -/
theorem IndexOk.teardown_kept {s : State} (ok : IndexOk s) {e : EntryNo} {h : Handle} (other : h ≠ (s.entry e).handle) :
    (s.teardown e).table.lookup h = s.table.lookup h := by
  refine Option.ext fun d => (ok.teardown_lookup e d h).trans (and_iff_left_of_imp fun held same => ?_)
  obtain ⟨_, handle⟩ := (ok h d).1 held
  exact other (handle.symm.trans (by rw [same]))

/-- Settles O20: the teardown field by field. -/
theorem hostRetireTearsTheEntryDown : Obligations.HostRetireTearsTheEntryDown := by
  intro b hb s takes working mark index
  set e : EntryNo := ⟨b.toNat, hb⟩
  have runs : exec (.retire b) s = .next (s.finished (s.retired e) .done [0x00#8]) := by
    refine exec_finished (late := true) takes hb working (effect := State.retire) rfl fun x => ?_
    refine (State.retire_unmarked (s := { s with host := x }) working mark).trans ?_
    rw [State.teardown_of_host]
    rfl
  have entry : ∀ d : EntryNo, (s.retired e).entry d = if d = e then Entry.vacant else s.entry d := fun d => by
    by_cases hd : d = e
    · rw [if_pos hd, hd, State.retired, State.entry_vacate_self]
    · rw [if_neg hd, State.retired, State.entry_vacate_ne _ hd, State.clear_entry, State.teardown_entry_ne s hd]
  have attention : (s.retired e).attention = s.attention.clear e := by
    rw [State.retired, State.vacate_attention, State.clear_attention, State.teardown_attention]
  have claims : (s.retired e).claims = s.claims.freeClaim e := by
    rw [State.retired, State.vacate_claims, State.clear_claims, State.teardown_claims]
  have lookup : ∀ h : Handle, (s.retired e).table.lookup h = (s.teardown e).table.lookup h := fun h => by
    rw [State.retired, State.vacate_table, TableController.lookup_setEntry, State.clear_table]
  have queue : QueueKept s (s.retired e) := by
    have clears : ∀ r : State, QueueKept r ((r.clear e).vacate e) := fun _ => ⟨rfl, rfl, rfl⟩
    exact (s.teardown_reports e).queue.trans (clears _)
  refine ⟨_, runs, State.finished_host _ _ _ _, ?_⟩
  simp only [State.finished_table, State.finished_pool, State.finished_claims, State.finished_line,
    State.finished_attention, State.finished_entry, entry, if_true, attention, claims]
  refine ⟨rfl, rfl, fun d hd => if_neg hd, ?_, fun h hh => ?_, ?_, ?_, ?_, fun k => ClaimTable.slot_freeClaim _ _ _, rfl, ?_,
    AttentionUnit.clear_record_self _ _, fun d hd => AttentionUnit.clear_record_ne _ hd, AttentionUnit.clear_list _ _,
    AttentionUnit.clear_conditions _ _, AttentionUnit.clear_attn _ _, queue.trans (State.finished_queue _ _ _ _)⟩
  · rw [lookup]
    exact index.teardown_gone (EntryState.indexed_of_working working)
  · rw [lookup]
    exact index.teardown_kept hh
  · rw [State.retired, State.vacate_table, TableController.setEntry_inFlight, State.clear_table, State.teardown_inFlight]
  · rw [State.retired, State.vacate_table, TableController.setEntry_pin, State.clear_table, State.teardown_eq]
  · rw [State.retired, State.vacate_pool, State.clear_pool, State.teardown_eq]
  · rw [State.retired, State.vacate_line, State.clear_line, State.teardown_eq]

/-- Settles O21: under the mark, a second RETIRE, and one of an ENDED entry. -/
theorem hostRetireInFlightOrEnded : Obligations.HostRetireInFlightOrEnded := by
  intro b hb s takes
  set e : EntryNo := ⟨b.toNat, hb⟩
  have finishes : ∀ (u : State) {reply : List Byte}, (s.entry e).state ≠ .vacant → (∀ x : HostPort,
      State.retire { s with host := x } e = ({ u with host := x } : State).complete .done reply) →
      exec (.retire b) s = .next (s.finished u .done reply) := fun u reply present he =>
    congrArg Host.Outcome.next (State.runRecord_finished takes hb (.inr ⟨rfl, present⟩) he)
  refine ⟨fun working mark => ?_, fun state => ?_, fun state => ?_⟩
  · exact ⟨_, finishes ((s.setEntry e { s.entry e with state := .retiring }).clear e)
        (EntryState.ne_vacant_of_working working) fun x =>
          State.retire_marked (s := { s with host := x }) working mark, rfl, State.entry_setEntry_self s e _,
      ⟨fun d hd => State.entry_setEntry_ne s _ hd, rfl, rfl, rfl⟩, rfl, rfl⟩
  · exact finishes s (by simp [state]) fun x => State.retire_retiring (s := { s with host := x }) state
  · exact ⟨_, finishes ((s.clear e).vacate e) (by simp [state]) fun x =>
          State.retire_ended (s := { s with host := x }) state, rfl,
      congrArg Entry.state ((s.clear e).entry_vacate_self e), congrArg Entry.cells ((s.clear e).entry_vacate_self e),
      ⟨fun d hd => State.entry_vacate_ne _ hd, rfl, rfl, rfl⟩, rfl, rfl⟩

/-! ## HOLD and LET_GO (R77 to R79) -/

section
variable {s : State} {e : EntryNo}

theorem State.hold_mirror (role : (s.entry e).role = .mirror) : s.hold e = s.complete .wrongRole [] := if_pos role

theorem State.hold_of_slot (role : (s.entry e).role = .source) {k : SlotNo} (slot : s.claims.slotOf e = some k) :
    s.hold e = match s.claims.slot k with
      | .reserved _ t _ _ => s.complete .claimed [t.zeroExtend 8, 0x01#8]
      | .heldLine _ t _ => s.complete .claimed [t.zeroExtend 8, 0x02#8]
      | .heldHost _ | .free => s.complete .done [BitVec.ofNat 8 k.val] := by
  simp [State.hold, role, slot] <;> rfl

theorem State.hold_free (role : (s.entry e).role = .source) (slot : s.claims.slotOf e = none) {k : SlotNo}
    (free : s.claims.firstFree = some k) :
    s.hold e = (s.setSlot k (.heldHost e)).complete .done [BitVec.ofNat 8 k.val] := by
  simp [State.hold, role, slot, free]

theorem State.hold_full (role : (s.entry e).role = .source) (slot : s.claims.slotOf e = none)
    (free : s.claims.firstFree = none) : s.hold e = s.complete .claimsFull [] := by
  simp [State.hold, role, slot, free]

theorem State.letGo_mirror {force : Bool} (role : (s.entry e).role = .mirror) :
    s.letGo e force = s.complete .wrongRole [] := if_pos role

theorem State.letGo_unclaimed {force : Bool} (role : (s.entry e).role = .source) (slot : s.claims.slotOf e = none) :
    s.letGo e force = s.complete .wrongState [] := by
  simp [State.letGo, role, slot]

theorem State.letGo_host {force : Bool} (role : (s.entry e).role = .source) {k : SlotNo}
    (slot : s.claims.slotOf e = some k) {d : EntryNo} (held : s.claims.slot k = .heldHost d) :
    s.letGo e force = (s.setSlot k .free).complete .done [] := by
  simp [State.letGo, role, slot, held]

theorem State.letGo_line (role : (s.entry e).role = .source) {k : SlotNo} (slot : s.claims.slotOf e = some k)
    (line : (s.claims.slot k).lineClaims e = true) : s.letGo e false = s.complete .wrongState [] := by
  cases held : s.claims.slot k <;> simp_all [State.letGo, Slot.lineClaims]

theorem State.letGo_forced (role : (s.entry e).role = .source) {k : SlotNo} (slot : s.claims.slotOf e = some k)
    (line : (s.claims.slot k).lineClaims e = true) : s.letGo e true = (s.forceFree k e).complete .done [] := by
  cases held : s.claims.slot k <;> simp_all [State.letGo, Slot.lineClaims]

theorem State.forceFree_heldLine {k : SlotNo} {d : EntryNo} {t : Tag} {lease : Nat}
    (held : s.claims.slot k = .heldLine d t lease) : s.forceFree k e = (s.setSlot k .free).post e .claimEnded := by
  simp [State.forceFree, held]

theorem State.forceFree_renewal {k : SlotNo} {d : EntryNo} {t : Tag} {lease : Nat}
    (held : s.claims.slot k = .reserved d t lease true) : s.forceFree k e = (s.setSlot k .free).post e .claimEnded := by
  simp [State.forceFree, held]

theorem State.forceFree_reserved {k : SlotNo} {d : EntryNo} {t : Tag} {lease : Nat}
    (held : s.claims.slot k = .reserved d t lease false) : s.forceFree k e = s.setSlot k .free := by
  simp [State.forceFree, held]

end

/-- The slot that names an entry is the one `slotOf` finds (R67). -/
theorem ClaimsOk.slotOf {s : State} (ok : ClaimsOk s) {e : EntryNo} {k : SlotNo}
    (names : (s.claims.slot k).names e = true) : s.claims.slotOf e = some k :=
  (ClaimTable.slotOf_eq_some (ok.unique e) k).2 names

theorem Slot.names_of_lineClaims {x : Slot} {e : EntryNo} (h : x.lineClaims e = true) : x.names e = true := by
  cases x with
  | reserved d t lease renewal => exact h
  | heldLine d t lease => exact h
  | free => cases h
  | heldHost d => cases h

/-- Settles O22, row by row of R77. -/
theorem holdFollowsItsTable : Obligations.HoldFollowsItsTable := by
  intro b hb s takes working claims
  set e : EntryNo := ⟨b.toNat, hb⟩
  have finishes : ∀ (u : State) {status : Status} {reply : List Byte}, (∀ x : HostPort,
      State.hold { s with host := x } e = ({ u with host := x } : State).complete status reply) →
      exec (.hold b) s = .next (s.finished u status reply) := fun u _ _ he =>
    exec_finished (late := false) takes hb working (effect := State.hold) rfl he
  refine ⟨fun role => ?_, fun role => ⟨fun k held => ?_, fun k tag lease renewal held => ?_, fun k tag lease held => ?_,
    fun unclaimed => ⟨fun k free lowest => ?_, fun full => ?_⟩⟩⟩
  · exact finishes s fun x => State.hold_mirror (s := { s with host := x }) role
  · have slot := claims.slotOf (e := e) (k := k) (by rw [held]; exact decide_eq_true rfl)
    exact finishes s fun x => (State.hold_of_slot (s := { s with host := x }) role slot).trans (by rw [held])
  · have slot := claims.slotOf (e := e) (k := k) (by rw [held]; exact decide_eq_true rfl)
    exact finishes s fun x => (State.hold_of_slot (s := { s with host := x }) role slot).trans (by rw [held])
  · have slot := claims.slotOf (e := e) (k := k) (by rw [held]; exact decide_eq_true rfl)
    exact finishes s fun x => (State.hold_of_slot (s := { s with host := x }) role slot).trans (by rw [held])
  · have slot := (ClaimTable.slotOf_eq_none s.claims e).2 unclaimed
    have first := (ClaimTable.firstFree_eq_some s.claims k).2 ⟨free, lowest⟩
    exact finishes (s.setSlot k (.heldHost e)) fun x => State.hold_free (s := { s with host := x }) role slot first
  · have slot := (ClaimTable.slotOf_eq_none s.claims e).2 unclaimed
    have none := (ClaimTable.firstFree_eq_none s.claims).2 full
    exact finishes s fun x => State.hold_full (s := { s with host := x }) role slot none

/-- Settles O23, row by row of R78 and R79. -/
theorem letGoFollowsItsTable : Obligations.LetGoFollowsItsTable := by
  intro b force hb s takes working claims
  set e : EntryNo := ⟨b.toNat, hb⟩
  have finishes : ∀ (u : State) {status : Status} {reply : List Byte}, (∀ x : HostPort,
      State.letGo { s with host := x } e (decide (force = 0x01#8)) =
        ({ u with host := x } : State).complete status reply) →
      exec (.letGo b force) s = .next (s.finished u status reply) := fun u _ _ he =>
    exec_finished (late := false) takes hb working (effect := fun s e => s.letGo e (decide (force = 0x01#8))) rfl he
  refine ⟨fun role => ?_, fun role => ⟨fun unclaimed => ?_, fun k held => ?_, fun unforced ⟨k, line⟩ => ?_, fun forced => ?_⟩⟩
  · exact finishes s fun x => State.letGo_mirror (s := { s with host := x }) role
  · have slot := (ClaimTable.slotOf_eq_none s.claims e).2 unclaimed
    exact finishes s fun x => State.letGo_unclaimed (s := { s with host := x }) role slot
  · have slot := claims.slotOf (e := e) (k := k) (by rw [held]; exact decide_eq_true rfl)
    exact finishes (s.setSlot k .free) fun x => State.letGo_host (s := { s with host := x }) role slot held
  · subst unforced
    exact finishes s fun x =>
      State.letGo_line (s := { s with host := x }) role (claims.slotOf (Slot.names_of_lineClaims line)) line
  · subst forced
    have frees : ∀ k : SlotNo, (s.claims.slot k).lineClaims e = true → ∀ x : HostPort,
        State.letGo { s with host := x } e (decide (0x01#8 = 0x01#8)) =
          (State.forceFree { s with host := x } k e).complete .done [] := fun k line x =>
      State.letGo_forced (s := { s with host := x }) role (claims.slotOf (Slot.names_of_lineClaims line)) line
    refine ⟨fun k tag lease held => ?_, fun k tag lease held => ?_, fun k tag lease held => ?_⟩
    · exact finishes ((s.setSlot k .free).post e .claimEnded) fun x =>
        (frees k (by rw [held]; exact decide_eq_true rfl) x).trans
          (congrArg (fun u : State => u.complete .done []) (State.forceFree_heldLine (s := { s with host := x }) held))
    · exact finishes ((s.setSlot k .free).post e .claimEnded) fun x =>
        (frees k (by rw [held]; exact decide_eq_true rfl) x).trans
          (congrArg (fun u : State => u.complete .done []) (State.forceFree_renewal (s := { s with host := x }) held))
    · exact finishes (s.setSlot k .free) fun x =>
        (frees k (by rw [held]; exact decide_eq_true rfl) x).trans
          (congrArg (fun u : State => u.complete .done []) (State.forceFree_reserved (s := { s with host := x }) held))

/-! ## CONFIGURE (R145) -/

theorem Rate.ofCode_isSome (b : Byte) : (Rate.ofCode b).isSome = true ↔ b.toNat ≤ 3 := by
  unfold Rate.ofCode
  constructor
  · intro h
    by_contra big
    rw [if_neg (by rintro rfl; simp at big), if_neg (by rintro rfl; simp at big), if_neg (by rintro rfl; simp at big),
      if_neg (by rintro rfl; simp at big)] at h
    cases h
  · intro h
    have code : b = 0x00#8 ∨ b = 0x01#8 ∨ b = 0x02#8 ∨ b = 0x03#8 := by bv_omega
    rcases code with rfl | rfl | rfl | rfl <;> rfl

/-- Settles O24: the two checks in order, then the four values. -/
theorem configureWritesAllFourValues : Obligations.ConfigureWritesAllFourValues := by
  intro rate holdTb idle lease s takes
  have finishes : ∀ (u : State) {status : Status} {reply : List Byte}, (∀ x : HostPort,
      State.configure { s with host := x } rate holdTb idle lease =
        ({ u with host := x } : State).complete status reply) →
      exec (.configure rate holdTb idle lease) s = .next (s.finished u status reply) := fun u _ _ he =>
    congrArg Host.Outcome.next (State.runCommand_finished takes he)
  refine ⟨fun bad => ?_, fun known least most short long => ?_⟩
  · refine finishes s fun x => ?_
    unfold State.configure
    split
    · rfl
    · next r code =>
      refine if_pos (decide_eq_false ?_)
      have := (Rate.ofCode_isSome rate).1 (by rw [code]; rfl)
      omega
  · obtain ⟨r, code⟩ := Option.isSome_iff_exists.1 ((Rate.ofCode_isSome rate).2 known)
    have range : configureInRange holdTb lease = true := decide_eq_true ⟨least, most, short, long⟩
    refine ⟨fun mode => ?_, fun mode => ⟨r, ?_, ?_⟩⟩
    · exact finishes s fun x => by simp [State.configure, code, range, mode]
    · have value : rate = 0x00#8 ∨ rate = 0x01#8 ∨ rate = 0x02#8 ∨ rate = 0x03#8 := by bv_omega
      rcases value with rfl | rfl | rfl | rfl <;> cases code <;> simp
    · exact finishes { s with
        line := { s.line with rate := r, hold := holdTb.toNat, idleLimit := idle.toNat }
        claims := { s.claims with lease := lease.toNat } } fun x => by simp [State.configure, code, range, mode]

end Sys2Proof.Machine
end

section
/-! PROOFS. The Line Unit's modes: SET_MODE, the part's own rouse, and DORMANT (O25, O27 and O28). -/

namespace Sys2Proof.Machine

/-! ## Shared operations do not look at the Host Port -/

theorem State.releasePin_of_host (s : State) (x : HostPort) :
    ({ s with host := x } : State).releasePin = { s.releasePin with host := x } := by
  rw [State.releasePin_eq, State.releasePin_eq]
  dsimp only
  split
  · rfl
  · rfl
  · simp only [State.freeHeld_eq]
    rfl

theorem State.closeSequence_of_host (s : State) (x : HostPort) :
    ({ s with host := x } : State).closeSequence = { s.closeSequence with host := x } := by
  rw [State.closeSequence_eq, State.closeSequence_eq]
  dsimp only
  split
  · rfl
  · rw [State.releasePin_of_host]
    rfl
  · simp only [State.freeStaged_eq]
    rfl

theorem State.leaveListen_of_host (s : State) (m : LineMode) (x : HostPort) :
    ({ s with host := x } : State).leaveListen m = { s.leaveListen m with host := x } := by
  rw [State.leaveListen_eq, State.leaveListen_eq, State.closeSequence_of_host]
  rfl

/-- A set that a condition has joined is not empty. -/
theorem LineCondition.joined_nonempty (c : LineCondition) (set : BitVec 8) : (set ||| c.set != 0#8) = true := by
  rw [bne_iff_ne, ne_eq, BitVec.or_eq_zero_iff]
  cases c <;> simp [LineCondition.set, LineCondition.number]

/-- A condition set is a set that is not empty, so ATTN is asserted (R164). -/
theorem State.setCondition_attention_eq (s : State) (c : LineCondition) :
    (s.setCondition c).attention =
      { s.attention with conditions := s.attention.conditions ||| c.set, attn := true } := by
  simp only [State.setCondition, AttentionUnit.drive, c.joined_nonempty, Bool.or_true]

/-! ## SET_MODE (R146, R147, R149) -/

theorem LineMode.ofCode_of_large {m : Byte} (h : 3 ≤ m.toNat) :
    LineMode.ofCode m = none ∨ LineMode.ofCode m = some .rousing := by
  unfold LineMode.ofCode
  rw [if_neg (by rintro rfl; simp at h), if_neg (by rintro rfl; simp at h), if_neg (by rintro rfl; simp at h)]
  split
  · exact .inr rfl
  · exact .inl rfl

section
variable {s : State}

theorem State.setMode_refused {m : Byte} (h : 3 ≤ m.toNat) : s.setMode m = s.complete .badArgument [] := by
  rcases LineMode.ofCode_of_large h with code | code <;> simp [State.setMode, code]

theorem State.setMode_named {m : LineMode} (known : m ≠ .rousing) :
    s.setMode m.code = if s.line.mode = .listen then s.setModeInListen m else s.setModeQuiet m := by
  cases m with
  | rousing => exact absurd rfl known
  | _ => rfl

/-- The present mode (R146): DONE, and nothing changes. -/
theorem State.setMode_present (known : s.line.mode ≠ .rousing) :
    s.setMode s.line.mode.code = s.complete .done [s.line.mode.code] := by
  rw [State.setMode_named known]
  split
  · next listen => rw [listen]; rfl
  · exact if_pos rfl

theorem State.setMode_listen (mode : s.line.mode = .offline ∨ s.line.mode = .dormant) :
    s.setMode 0x01#8 = (s.enterListen .waiting).complete .done [0x01#8] := by
  refine (State.setMode_named (m := .listen) (by decide)).trans ?_
  rcases mode with mode | mode <;> simp [State.setModeQuiet, mode] <;> rfl

theorem State.setMode_dormant_busy (mode : s.line.mode = .listen) (phase : s.line.phase.inFlight = true) :
    s.setMode 0x02#8 = s.complete .lineBusy [] := by
  refine (State.setMode_named (m := .dormant) (by decide)).trans ?_
  simp [State.setModeInListen, mode, phase]

/-- OFFLINE or DORMANT from another mode (R147): LISTEN is left, or the other mode, which has no sequence open. -/
theorem State.setMode_leaves (ok : LineOk s) {q : LineMode} (target : q = .offline ∨ q = .dormant)
    (other : s.line.mode ≠ q) (phase : s.line.phase.inFlight = false) :
    s.setMode q.code = (s.leaveListen q).complete .done [q.code] := by
  have known : q ≠ .rousing := by rcases target with rfl | rfl <;> decide
  rw [State.setMode_named known]
  split
  · next listen =>
    have answering : s.line.phase ≠ .answering := by
      intro h
      simp [h, Phase.inFlight] at phase
    rcases target with rfl | rfl
    · simp [State.setModeInListen, answering, phase, State.completeMode]
    · simp [State.setModeInListen, phase, State.completeMode]
  · next quiet =>
    obtain ⟨_, _, seq, _⟩ := ok.quiet quiet
    have enters : q ≠ .listen := by rcases target with rfl | rfl <;> decide
    rw [State.leaveListen_none seq, State.setModeQuiet, if_neg other, if_neg enters, State.completeMode]

end

/-- Settles O25, by the mode named and the mode present. -/
theorem setModeFollowsItsTable : Obligations.SetModeFollowsItsTable := by
  intro m s takes ok
  have finishes : ∀ (u : State) {status : Status} {reply : List Byte}, (∀ x : HostPort,
      State.setMode { s with host := x } m = ({ u with host := x } : State).complete status reply) →
      exec (.setMode m) s = .next (s.finished u status reply) := fun u _ _ he =>
    congrArg Host.Outcome.next (State.runCommand_finished takes he)
  refine ⟨fun large => ?_, fun present known => ?_, fun listen mode => ?_, fun mode phase dormant => ?_,
    fun q named other known phase => ?_⟩
  · exact finishes s fun x => State.setMode_refused (s := { s with host := x }) large
  · subst present
    exact finishes s fun x => State.setMode_present (s := { s with host := x }) known
  · subst listen
    exact ⟨_, finishes (s.enterListen .waiting) fun x => State.setMode_listen (s := { s with host := x }) mode, rfl, rfl,
      rfl, rfl, rfl, rfl, rfl, rfl, rfl, rfl, rfl, rfl, rfl⟩
  · subst dormant
    exact finishes s fun x => State.setMode_dormant_busy (s := { s with host := x }) mode phase
  · have target : q = .offline ∨ q = .dormant := named.imp And.left And.left
    have code : m = q.code := by rcases named with ⟨rfl, rfl⟩ | ⟨rfl, rfl⟩ <;> rfl
    subst code
    have runs := finishes (s.leaveListen q) fun x => by
      rw [← State.leaveListen_of_host]
      exact State.setMode_leaves (s := { s with host := x })
        (ok.congr rfl) target other phase
    have line : (s.finished (s.leaveListen q) .done [q.code]).line = { s.line with seq := none }.quit q :=
      s.leaveListen_line q
    refine ⟨_, runs, rfl, ?_⟩
    rw [line]
    refine ⟨rfl, rfl, rfl, rfl, rfl, rfl, rfl, rfl, rfl, rfl, rfl, s.leaveListen_claims q, ?_,
      (s.leaveListen_queue q).trans (State.finished_queue _ _ _ _), fun seq => ?_, fun c seq => ?_,
      s.closeSequence, s.closeSequence_closed, ?_⟩
    · rw [State.finished_pool, State.leaveListen_pool, State.closeSequence_bytes]
    · rw [State.leaveListen_none seq]
      simp only [State.finished, State.quitListen, ← seq]
    · rw [State.finished_attention, State.leaveListen_attention, State.brokenPosting, seq]
    · rw [State.finished_attention, State.leaveListen_attention]
      exact congrArg (fun u => s.finished u .done [q.code]) (s.leaveListen_eq q)

/-! ## ROUSE (R152, R153) -/

/-- Settles O27: the pulse, its end, and the wait. -/
theorem rouseRunsToListen : Obligations.RouseRunsToListen := by
  refine ⟨fun s takes => ⟨fun mode => ?_, fun mode => ?_⟩, fun s mode pulse => ?_, fun c p s mode cases => ?_⟩
  · exact congrArg Host.Outcome.next (State.runCommand_eq_replied takes fun x => if_neg mode)
  · obtain ⟨x, runs, _, outstanding⟩ := State.runCommand_of_takes takes State.rouse
    have taken : State.rouse { s with host := x } = _ := if_pos mode
    exact ⟨_, congrArg Host.Outcome.next (runs.trans taken), outstanding _, rfl, rfl, rfl, rfl, rfl, rfl⟩
  · exact congrArg Host.Outcome.next (if_pos ⟨mode, pulse⟩)
  · have enters : exec c s = .next (State.finishRouse { s with attention := if p = .waiting then s.attention else
        { s.attention with conditions := s.attention.conditions ||| 0x20#8, attn := true } } p) := by
      rcases cases with ⟨rfl, rfl, txd⟩ | ⟨rfl, rfl, txd⟩ | ⟨rfl, rfl, txd⟩
      · exact congrArg Host.Outcome.next (if_pos ⟨mode, txd⟩)
      · exact congrArg Host.Outcome.next (if_pos ⟨mode, txd⟩)
      · refine congrArg Host.Outcome.next ((if_pos ⟨mode, txd⟩).trans ?_)
        exact congrArg (fun u => State.finishRouse { s with attention := u } .recovering)
          (s.setCondition_attention_eq .lineStuck)
    have code : p.code = if p = .waiting then 0x00#8 else 0x07#8 := by
      rcases cases with ⟨_, rfl, _⟩ | ⟨_, rfl, _⟩ | ⟨_, rfl, _⟩ <;> rfl
    exact ⟨_, enters, by rw [← code]; rfl, rfl, rfl, rfl, rfl, rfl, rfl, rfl, rfl, rfl, rfl, rfl, rfl⟩

/-! ## DORMANT (R151, R149) -/

/-- Settles O28: the four events of DORMANT. -/
theorem dormantIsLeftByARouseOrAStuckLine : Obligations.DormantIsLeftByARouseOrAStuckLine := fun s mode =>
  ⟨rfl, congrArg Host.Outcome.next (if_pos mode),
    fun seen => ⟨_, congrArg Host.Outcome.next (if_pos ⟨mode, seen⟩), rfl, rfl, rfl, rfl, rfl, rfl, rfl, rfl, rfl, rfl, rfl⟩,
    _, congrArg Host.Outcome.next (if_pos mode), rfl, rfl, rfl, rfl, rfl, rfl, rfl, rfl, rfl, rfl,
    s.setCondition_attention_eq .lineStuck, rfl⟩

end Sys2Proof.Machine
end

section
/-! PROOFS. Resets, RESTART and the edges of CS (O29, O30, O31 and O51). -/

namespace Sys2Proof.Machine

/-! ## The reset state (R2, R29, R68, R154) -/

theorem Entry.vacant_isReset : Entry.vacant.isReset := ⟨rfl, rfl, rfl, rfl, rfl, rfl, rfl, rfl⟩

theorem TableController.reset_entry (e : EntryNo) : TableController.reset.entry e = Entry.vacant := Tests.reset_entry e

theorem TableController.reset_lookup (h : Handle) : TableController.reset.lookup h = none := Tests.reset_lookup h

theorem AttentionUnit.reset_record (e : EntryNo) : AttentionUnit.reset.record e = AttentionRecord.closed := by
  simp [AttentionUnit.record, AttentionUnit.reset]

/-- What every reset makes of the blocks, whatever it makes of the configuration and the Host Port (R176). -/
structure BlocksReset (s t : State) : Prop where
  table : t.table = TableController.reset
  free : t.pool.free = List.finRange 384
  bytes : t.pool.bytes = s.pool.bytes
  slots : t.claims.slots = ClaimTable.noClaims
  attention : t.attention = AttentionUnit.reset
  queue : QueueKept s t

theorem State.resetBlocks_pool (s : State) : s.resetBlocks.pool = { s.pool with free := List.finRange 384 } := by
  simp only [State.resetBlocks, CellPool.allFree]

theorem State.resetBlocks_reset (s : State) : BlocksReset s s.resetBlocks :=
  ⟨rfl, s.resetBlocks_free, rfl, rfl, rfl, rfl, rfl, rfl⟩

section
variable {s t : State} (reset : BlocksReset s t)
include reset

theorem BlocksReset.entry (e : EntryNo) : t.entry e = Entry.vacant := by
  rw [State.entry, reset.table, TableController.reset_entry]

theorem BlocksReset.records (e : EntryNo) : (t.entry e).isReset ∧ (t.attention.record e).isReset := by
  rw [reset.entry, reset.attention, AttentionUnit.reset_record]
  exact ⟨Entry.vacant_isReset, rfl, rfl, rfl⟩

theorem BlocksReset.lookup (h : Handle) : t.table.lookup h = none := by
  rw [reset.table, TableController.reset_lookup]

theorem BlocksReset.slot (k : SlotNo) : t.claims.slot k = .free := by
  simp [ClaimTable.slot, reset.slots, ClaimTable.noClaims]

end

/-- Settles O30: the start of a reset, the release of it, and the end of the initialisation. -/
theorem resetsLeaveTheResetState : Obligations.ResetsLeaveTheResetState := by
  refine ⟨fun c s reset => ?_, fun s held => ⟨fun high => ?_, fun low state => ?_⟩, fun s stage => ?_⟩
  · rcases reset with rfl | rfl
    · refine ⟨_, rfl, rfl, rfl, rfl, rfl, rfl, rfl, rfl, rfl, rfl, ⟨rfl, rfl, rfl⟩, ?_⟩
      rw [if_pos rfl]
      simp only [CellPool.reset]
    · exact ⟨_, rfl, rfl, rfl, rfl, rfl, rfl, rfl, rfl, rfl, rfl, ⟨rfl, rfl, rfl⟩, (if_neg nofun).symm⟩
  · refine congrArg Host.Outcome.next ((if_pos held).trans ?_)
    simp [high]
  · refine congrArg Host.Outcome.next ((if_pos held).trans ?_)
    simp [low, state, HostPort.select] <;> rfl
  · have reset : BlocksReset s { s.resetBlocks.defaultConfiguration with host := { s.host with
        stage := .complete, ready := true, work := none
        state := if s.host.state = .workingBusy then .workingBusy else .idle } } :=
      ⟨rfl, s.resetBlocks_free, rfl, rfl, rfl, rfl, rfl, rfl⟩
    refine ⟨_, congrArg Host.Outcome.next (if_pos stage), rfl, reset.records, reset.lookup, rfl, rfl, ?_, reset.slot, rfl,
      rfl, rfl, rfl, rfl, rfl, rfl, rfl, rfl, reset.queue⟩
    exact s.resetBlocks_pool

/-- Settles O31: RESTART waits in ANSWERING, and is the reset of R176 elsewhere. -/
theorem restartResetsEveryBlock : Obligations.RestartResetsEveryBlock := by
  refine ⟨fun s takes phase => ?_, fun c s how => ?_⟩
  · obtain ⟨x, runs, _, outstanding⟩ := State.runCommand_of_takes takes State.restart
    refine congrArg Host.Outcome.next (runs.trans ((if_pos phase).trans ?_))
    exact congrArg (fun port => { s with host := port }) (outstanding .restart)
  · have runs : exec c s = .next (s.finished s.resetBlocks .done []) := by
      rcases how with ⟨rfl, takes, phase⟩ | ⟨rfl, work⟩
      · exact congrArg Host.Outcome.next (State.runCommand_finished takes fun x => if_neg phase)
      · exact congrArg Host.Outcome.next (if_pos work)
    have reset := s.resetBlocks_reset
    exact ⟨_, runs, rfl, reset.records, reset.lookup, rfl, rfl, reset.free, fun _ => rfl, reset.slot, rfl, rfl, rfl, rfl, rfl,
      reset.queue⟩

/-! ## The invariants at the reset state -/

theorem State.reset_entry (e : EntryNo) : State.reset.entry e = Entry.vacant := TableController.reset_entry e

theorem ClaimsOk.reset : ClaimsOk State.reset :=
  ClaimsRest.ok (.default rfl rfl) nofun

theorem CopiesOk.reset : CopiesOk State.reset where
  entries e := by
    rw [State.reset_entry]
    constructor <;> simp [Entry.vacant, Entry.cells]
  held e := by simp [State.reset_entry, Entry.vacant]
  assembly e := by simp [State.reset_entry, Entry.vacant]
  pin _ h := nomatch h
  sequence _ h := nomatch h
  answering h := h.elim nofun nofun
  asking _ h := nomatch h

theorem FlightOk.reset : FlightOk State.reset where
  listening := nofun
  marked := nofun
  unmarked _ := rfl
  standing _ h := nomatch h
  retiring e := by simp [State.reset_entry, Entry.vacant]
  vacating _ h := nomatch h
  ending e := by
    have closed : State.reset.attention.record e = AttentionRecord.closed := AttentionUnit.reset_record e
    simp [closed, AttentionRecord.closed]

/-- Settles O51: every entry is VACANT, every record CLOSED, every slot and cell free, and the line and the port at
rest. -/
theorem resetMeetsTheInvariants : Obligations.ResetMeetsTheInvariants := by
  refine ⟨rfl, by constructor <;> decide, by constructor <;> decide, .reset, .reset rfl rfl, fun h e => ?_,
    .of_entries (fun e => ?_) ?_ ?_, .reset, .reset, .reset rfl ?_⟩
  · have gone : State.reset.table.lookup h = none := TableController.reset_lookup h
    simp [gone, State.reset_entry, Entry.vacant, EntryState.indexed]
  · rw [State.reset_entry]
    exact Entry.vacant_inRange
  · decide
  · decide
  · simp only [State.reset, CellPool.reset]

end Sys2Proof.Machine
end

section
/-! PROOFS. Transactions at the Host Port (O29). -/

namespace Sys2Proof.Machine

/-! ## What a frame is judged -/

theorem judgeFrame_empty_or_nop {bytes : List Byte} (h : bytes = [] ∨ bytes.head? = some 0x00#8) :
    judgeFrame bytes = .noEffect ∨ judgeFrame bytes = .nop := by
  rcases h with rfl | h
  · exact .inl rfl
  · cases bytes with
    | nil => cases h
    | cons code rest =>
      obtain rfl : code = 0x00#8 := by simpa using h
      exact .inr rfl

theorem judgeFrame_cut {code : Byte} (frame : code ≠ 0x00#8) : judgeFrame [code] = .badFrame := by
  simp [judgeFrame, frame]

theorem judgeFrame_short {code count : Byte} {rest : List Byte} (frame : code ≠ 0x00#8)
    (bad : 40 < count.toNat ∨ rest.length < count.toNat) : judgeFrame (code :: count :: rest) = .badFrame := by
  simp only [judgeFrame, frame, if_false, Config.maxCount, bad, if_true]

theorem judgeFrame_whole {code count : Byte} {rest : List Byte} (frame : code ≠ 0x00#8) (most : count.toNat ≤ 40)
    (enough : count.toNat ≤ rest.length) :
    judgeFrame (code :: count :: rest) = .frame code (rest.take count.toNat) := by
  have good : ¬ (40 < count.toNat ∨ rest.length < count.toNat) := by omega
  simp only [judgeFrame, frame, if_false, Config.maxCount, good]

/-- A STAGE that is read carries 1 to 32 data bytes (R167). -/
theorem decodeCommand_stage {code : Byte} {params : List Byte} {e o : Byte} {data : List Byte}
    (h : decodeCommand code params = .command (.stage e o data)) : 1 ≤ data.length ∧ data.length ≤ 32 := by
  unfold decodeCommand at h
  repeat' split at h
  all_goals cases h
  assumption

/-- The Host Port refuses no command that it has read, but a LET_GO with an impossible force (R173). -/
theorem portRefusal_of_decoded {code : Byte} {params : List Byte} {i : Instr} (h : decodeCommand code params = .command i)
    (force : ∀ e f : Byte, i = .letGo e f → f.toNat ≤ 1) : portRefusal i = none := by
  cases i with
  | stage e o data =>
    obtain ⟨least, most⟩ := decodeCommand_stage h
    simp only [portRefusal]
    rw [if_neg (by omega), if_neg (by omega)]
  | letGo e f =>
    have small := force e f rfl
    have known : f = 0#8 ∨ f = 1#8 := by bv_omega
    exact if_pos known
  | _ => rfl

theorem portRefusal_of_force {e f : Byte} (h : 1 < f.toNat) : portRefusal (.letGo e f) = some .badArgument := by
  refine if_neg ?_
  rintro (rfl | rfl) <;> simp at h

/-! ## The rise of CS (R167 to R170) -/

/-- What a frame judged does to the port, in each case of R167. -/
theorem State.judge_port (s : State) (bytes : List Byte) :
    OnlyHostChanged s (s.judge bytes) ∧ (s.judge bytes).host.csLow = false ∧ (s.judge bytes).host.sdo = none ∧
      (s.judge bytes).host.shifted = s.host.shifted := by
  unfold State.judge
  split
  · exact ⟨rfl, rfl, rfl, rfl⟩
  · exact ⟨rfl, rfl, rfl, rfl⟩
  · exact ⟨rfl, rfl, rfl, rfl⟩
  · unfold State.takeFrame
    split
    · exact ⟨rfl, rfl, rfl, rfl⟩
    · exact ⟨rfl, rfl, rfl, rfl⟩
    · split <;> exact ⟨rfl, rfl, rfl, rfl⟩

/-- The machine after a rise of CS, with what SDO has carried recorded. -/
def State.risen (s : State) (bytes : List Byte) : State :=
  match s.host.state with
  | .shifting => (s.recordShifted bytes.length).judge bytes
  | .workingBusy => (s.recordShifted bytes.length).deselect s.host.afterBusy []
  | .initialising | .idle | .working =>
    { s with host := { s.host with shifted := s.host.shiftOut bytes.length, csLow := false } }

theorem exec_csRise {s : State} (low : s.host.csLow = true) (bytes : List Byte) :
    exec (.csRise bytes) s = .next (s.risen bytes) := by
  have falls : ¬ s.host.csLow = false := by simp [low]
  refine congrArg Host.Outcome.next ((if_neg falls).trans ?_)
  cases state : s.host.state <;> simp [State.risen, State.recordShifted, state] <;> rfl

theorem State.risen_port {s : State} (ok : HostOk s) (bytes : List Byte) (low : s.host.csLow = true) :
    OnlyHostChanged s (s.risen bytes) ∧ (s.risen bytes).host.csLow = false ∧ (s.risen bytes).host.sdo = none ∧
      (s.risen bytes).host.shifted = s.host.shiftOut bytes.length := by
  unfold State.risen
  split
  · have judged := (s.recordShifted bytes.length).judge_port bytes
    exact judged
  · exact ⟨rfl, rfl, rfl, rfl⟩
  · next state =>
    obtain ⟨_, _, _, sdo, _⟩ := ok.initialising state
    exact ⟨rfl, rfl, sdo, rfl⟩
  · next state => simp [(ok.idle state).2.1] at low
  · next state => simp [(ok.working state).2.1] at low

/-- SDO carries the image first and 00h after it (R166). -/
theorem HostPort.shiftOut_image {h : HostPort} {image : List Byte} (sdo : h.sdo = some image) (count : Nat) :
    (h.shiftOut count).length = count ∧ ∀ i : Nat, i < count →
      (∀ inside : i < image.length, (h.shiftOut count).getD i 0xFF#8 = image[i]) ∧
      (image.length ≤ i → (h.shiftOut count).getD i 0xFF#8 = 0x00#8) := by
  have carried : h.shiftOut count = (List.range count).map (imageByte image) := by simp [HostPort.shiftOut, sdo]
  rw [carried]
  refine ⟨by simp, fun i hi => ⟨fun inside => ?_, fun past => ?_⟩⟩
  · simp [List.getD, imageByte, hi, inside]
  · simp [List.getD, imageByte, hi, past]

theorem State.risen_shifting {s : State} (state : s.host.state = .shifting) (bytes : List Byte) :
    s.risen bytes = (s.recordShifted bytes.length).judge bytes := by
  simp [State.risen, state]

section
variable {s : State} {bytes : List Byte}

theorem State.judge_bare (h : judgeFrame bytes = .noEffect ∨ judgeFrame bytes = .nop) :
    ∃ buffer : List Byte, s.judge bytes = s.deselect .idle buffer := by
  rcases h with h | h
  · exact ⟨_, by rw [State.judge, h]⟩
  · exact ⟨_, by rw [State.judge, h]⟩

theorem State.judge_badFrame (h : judgeFrame bytes = .badFrame) :
    s.judge bytes = (s.deselect .idle []).complete .badFrame [] := by rw [State.judge, h]

theorem State.judge_frame {code : Byte} {params : List Byte} (h : judgeFrame bytes = .frame code params) :
    s.judge bytes = (s.deselect .idle (bytes.take 42)).takeFrame code params := by
  rw [State.judge, h]
  rfl

end

theorem State.takeFrame_refused {s : State} {code : Byte} {params : List Byte} {i : Instr} {status : Status}
    (h : decodeCommand code params = .command i) (refused : portRefusal i = some status) :
    s.takeFrame code params = s.complete status [] := by
  simp only [State.takeFrame, h, refused]

theorem State.takeFrame_handed {s : State} {code : Byte} {params : List Byte} {i : Instr}
    (h : decodeCommand code params = .command i) (taken : portRefusal i = none) :
    s.takeFrame code params = s.setWork (.handed i) := by
  simp only [State.takeFrame, h, taken]

/-- Settles O29: the image at the fall of CS; at its rise, the cases of R167 and R173 in their order. -/
theorem transactionsAreJudged : Obligations.TransactionsAreJudged := by
  refine ⟨fun _ => rfl, fun s high stage => ⟨fun state => ?_, fun state => ?_⟩, fun bytes s low ok => ?_⟩
  · refine congrArg Host.Outcome.next ((if_neg (by simp [high])).trans ((if_neg stage).trans ?_))
    simp only [HostPort.select, state]
    rfl
  · refine congrArg Host.Outcome.next ((if_neg (by simp [high])).trans ((if_neg stage).trans ?_))
    rcases state with state | state
    · simp only [HostPort.select, state]
      rfl
    · simp only [HostPort.select, state]
      rfl
  · obtain ⟨only, cs, sdo, shifted⟩ := State.risen_port ok bytes low
    refine ⟨s.risen bytes, exec_csRise low bytes, only, cs, sdo, fun image carried => ?_, fun silent => ?_,
      fun state bare => ?_, fun code state frame cut => ?_, fun code count rest state frame eq => ?_, fun state => ?_⟩
    · rw [shifted]
      exact HostPort.shiftOut_image carried bytes.length
    · rw [shifted]
      simp [HostPort.shiftOut, silent]
    · obtain ⟨ready, _, work, _⟩ := ok.shifting state
      obtain ⟨buffer, judged⟩ := State.judge_bare (s := s.recordShifted bytes.length) (judgeFrame_empty_or_nop bare)
      rw [State.risen_shifting state, judged]
      exact ⟨rfl, ready, rfl, work⟩
    · rw [State.risen_shifting state, State.judge_badFrame (by rw [cut]; exact judgeFrame_cut frame)]
      exact ⟨rfl, rfl, rfl, rfl, rfl⟩
    · rw [State.risen_shifting state]
      refine ⟨fun bad => ?_, fun most enough => ?_⟩
      · rw [State.judge_badFrame (by rw [eq]; exact judgeFrame_short frame bad)]
        exact ⟨rfl, rfl, rfl, rfl, rfl⟩
      · rw [State.judge_frame (by rw [eq]; exact judgeFrame_whole frame most enough)]
        refine ⟨?_, fun bad => ?_, fun bad => ?_, fun i read force => ?_⟩
        · unfold State.takeFrame
          split
          · rfl
          · rfl
          · split <;> rfl
        · simp only [State.takeFrame, bad]
          exact ⟨rfl, rfl, rfl, rfl⟩
        · rcases bad with bad | ⟨e, f, read, impossible⟩
          · simp only [State.takeFrame, bad]
            exact ⟨rfl, rfl, rfl, rfl⟩
          · rw [State.takeFrame_refused read (portRefusal_of_force impossible)]
            exact ⟨rfl, rfl, rfl, rfl⟩
        · rw [State.takeFrame_handed read (portRefusal_of_decoded read force)]
          exact ⟨rfl, rfl, rfl, rfl⟩
    · have risen : s.risen bytes = (s.recordShifted bytes.length).deselect s.host.afterBusy [] := by
        simp [State.risen, state]
      rw [risen]
      exact ⟨rfl, rfl, rfl, rfl, rfl⟩

end Sys2Proof.Machine
end

section
/-! PROOFS. The segment hold, runs and breaks by phase, and header characters (O35, O36 and O38). -/

namespace Sys2Proof.Machine

/-! ## Closing a sequence reads the table, the pool and the sequence alone -/

theorem State.releasePin_like {s r : State} (table : r.table = s.table) (pool : r.pool = s.pool) :
    r.releasePin.table = s.releasePin.table ∧ r.releasePin.pool = s.releasePin.pool := by
  rw [State.releasePin_eq, State.releasePin_eq, table]
  split
  · exact ⟨table, pool⟩
  · exact ⟨congrArg (fun t => { t with pin := none }) table, pool⟩
  · simp only [State.freeHeld_eq, State.setPin, State.entry, table, pool, and_self]

/-- Closing a sequence touches the table, the pool and the sequence context alone. -/
theorem State.closeSequence_touches (s : State) :
    s.closeSequence = { s with
      table := s.closeSequence.table, pool := s.closeSequence.pool, line := { s.line with seq := none } } := by
  have pool : s.closeSequence.pool = { s.pool with free := s.closeSequence.pool.free } :=
    congrArg State.pool s.closeSequence_frame
  rw [pool]
  exact s.closeSequence_frame

theorem State.closeSequence_like {s r : State} (table : r.table = s.table) (pool : r.pool = s.pool)
    (seq : r.line.seq = s.line.seq) :
    r.closeSequence = { r with
      table := s.closeSequence.table, pool := s.closeSequence.pool, line := { r.line with seq := none } } := by
  have same : r.closeSequence.table = s.closeSequence.table ∧ r.closeSequence.pool = s.closeSequence.pool := by
    rw [State.closeSequence_eq, State.closeSequence_eq, seq]
    split
    · exact ⟨table, pool⟩
    · exact State.releasePin_like table pool
    · simp only [State.freeStaged_eq, State.setSeq, State.entry, table, pool, and_self]
  rw [← same.1, ← same.2]
  exact r.closeSequence_touches

/-! ## The segment hold (R113) -/

theorem exec_segmentHoldExpiry_running {s : State} {q : SequenceContext} (seq : s.line.seq = some q) {d : Nat}
    (hold : q.hold = some d) : exec .segmentHoldExpiry s = .next s.breakSequence := by
  show execSegmentHoldExpiry s = _
  simp [execSegmentHoldExpiry, seq, hold]

theorem exec_segmentHoldExpiry_stopped {s : State} {q : SequenceContext} (seq : s.line.seq = some q)
    (hold : q.hold = none) : exec .segmentHoldExpiry s = .next s := by
  show execSegmentHoldExpiry s = _
  simp [execSegmentHoldExpiry, seq, hold]

theorem State.closeSequence_serve {s : State} {q : SequenceContext} (seq : s.line.seq = some q) (kind : q.kind = .serve) :
    s.closeSequence = s.releasePin.setSeq none := by
  simp [State.closeSequence, seq, kind]

theorem State.closeSequence_assemble {s : State} {q : SequenceContext} (seq : s.line.seq = some q)
    (kind : q.kind = .assemble) : s.closeSequence = (s.freeStaged q.entry).setSeq none := by
  simp [State.closeSequence, seq, kind]

/-- Settles O35: a running hold that expires breaks the sequence, of either kind. -/
theorem segmentHoldExpiryClosesTheSequence : Obligations.SegmentHoldExpiryClosesTheSequence := by
  refine fun s q seq => ⟨exec_segmentHoldExpiry_stopped seq, fun d hold => ⟨fun serve => ?_, fun cells assemble staged => ?_⟩⟩
  · rw [exec_segmentHoldExpiry_running seq hold, State.breakSequence_closed, State.brokenPosting, seq,
      State.closeSequence_serve seq serve]
    simp only [State.setSeq, State.releasePin_line]
  · have eq : s.breakSequence = { s with
        table := s.table.setEntry q.entry { s.entry q.entry with staged := none }
        pool := s.pool.release cells
        line := { s.line with seq := none }
        attention := s.attention.post q.entry (1#13 <<< 7) } := by
      rw [State.breakSequence_closed, State.brokenPosting, seq, State.closeSequence_assemble seq assemble,
        State.freeStaged_eq, staged]
      rfl
    refine ⟨_, (exec_segmentHoldExpiry_running seq hold).trans (congrArg _ eq), State.entry_setEntry_self s _ _,
      ⟨fun d hd => State.entry_setEntry_ne s _ hd, rfl, rfl, rfl⟩, rfl, rfl, rfl, rfl⟩

/-! ## Runs, by the phase (R87 to R92, R140, R141) -/

section
variable {s : State} (mode : s.line.mode = .listen)
include mode

theorem exec_dominantRunStart_waiting (phase : s.line.phase = .waiting) :
    exec .dominantRunStart s = .next { s with line := { s.line with
      phase := .inBreak, breakSeen := false, runBefore := false } } := by
  show execDominantRunStart s = _
  simp [execDominantRunStart, mode, phase, State.endRunBefore]

theorem exec_dominantRunStart_recovering (phase : s.line.phase = .recovering) :
    exec .dominantRunStart s = .next { s with line := { s.line with runBefore := false } } := by
  show execDominantRunStart s = _
  simp [execDominantRunStart, mode, phase, State.endRunBefore]

theorem exec_dominantRunStart_receiving (phase : s.line.phase = .receiving) (between : s.line.assembling = false) :
    exec .dominantRunStart s = .next { s with line := { s.line with edge := true } } := by
  show execDominantRunStart s = _
  simp [execDominantRunStart, mode, phase, between]

theorem exec_dominantRunStart_other (waiting : s.line.phase ≠ .waiting) (recovering : s.line.phase ≠ .recovering)
    (inside : s.line.phase ≠ .receiving ∨ s.line.assembling = true) : exec .dominantRunStart s = .next s := by
  show execDominantRunStart s = _
  cases phase : s.line.phase <;> simp_all [execDominantRunStart]

theorem exec_runShortOfBreak_inBreak (phase : s.line.phase = .inBreak) (short : s.line.breakSeen = false) :
    exec .runShortOfBreak s = .next (s.enterQuiet .waiting) := by
  show execRunShortOfBreak s = _
  simp [execRunShortOfBreak, mode, phase, short]

theorem exec_runShortOfBreak_waiting (phase : s.line.phase = .waiting) :
    exec .runShortOfBreak s = .next { s with line := { s.line with runBefore := false } } := by
  show execRunShortOfBreak s = _
  simp [execRunShortOfBreak, mode, phase, State.endRunBefore]

theorem exec_lineStuck_quiet (phase : s.line.phase.inFlight = false) :
    exec .lineStuck s = .next ((s.setCondition .lineStuck).enterQuiet .recovering) := by
  show execLineStuck s = _
  simp [execLineStuck, mode, phase]

theorem exec_startBitSample {dominant : Bool} (between : s.line.assembling = false) :
    exec (.startBitSample dominant) s = .next (match s.line.phase with
      | .header => { s with line := { s.line with assembling := dominant } }
      | .receiving => { s with line := { s.line with
          assembling := dominant, startSeen := s.line.startSeen || dominant, edge := false } }
      | .waiting | .inBreak | .space | .answering | .skipping | .recovering => s) :=
  congrArg Host.Outcome.next (if_pos ⟨mode, between⟩)

end

/-- Settles O36, event by event and phase by phase. -/
theorem runsMoveThePhase : Obligations.RunsMoveThePhase := by
  refine ⟨fun s mode => ⟨exec_dominantRunStart_waiting mode, exec_dominantRunStart_recovering mode,
      exec_dominantRunStart_receiving mode, exec_dominantRunStart_other mode⟩,
    fun s mode phase short pending => ?_, fun s mode => exec_runShortOfBreak_waiting mode,
    fun s mode phase seen => congrArg Host.Outcome.next (if_pos ⟨mode, phase, seen⟩),
    fun s => ⟨fun mode phase => congrArg Host.Outcome.next (if_pos ⟨mode, phase⟩), fun other => ?_⟩,
    fun s mode phase pending => ?_, fun s mode phase pending => ?_, fun s mode between => ⟨fun phase => ?_, fun phase => ?_,
      fun phase => ⟨?_, ?_⟩⟩⟩
  · rw [exec_runShortOfBreak_inBreak mode phase short, State.enterQuiet_of_not_pending pending, ← short]
  · exact congrArg Host.Outcome.next (if_neg fun h => other.elim (· h.1) (· h.2))
  · rw [exec_lineStuck_quiet mode phase,
      State.enterQuiet_of_not_pending (s := s.setCondition .lineStuck) pending, State.setCondition_attention_eq]
    rfl
  · refine congrArg Host.Outcome.next ((if_pos ⟨mode, phase⟩).trans ?_)
    exact State.enterQuiet_of_not_pending pending _
  · rw [exec_startBitSample mode between]
    cases p : s.line.phase with
    | receiving => exact absurd p phase
    | header => simp only [← between]
    | _ => rfl
  · rw [exec_startBitSample mode between, phase]
  · rw [exec_startBitSample mode between, phase, Bool.or_false, ← between]
  · rw [exec_startBitSample mode between, phase, Bool.or_true]

/-! ## Header characters (R93, R95, R129, R130) -/

theorem exec_headerCharacter {s : State} (mode : s.line.mode = .listen) (phase : s.line.phase = .header) (b : Byte) :
    exec (.headerCharacter b false) s = .next (s.headerByte b) :=
  congrArg Host.Outcome.next (if_pos ⟨mode, phase⟩)

/-- A condition set before an open sequence is closed early (R129). -/
theorem State.setCondition_breakSequence (s : State) (c : LineCondition) :
    (s.setCondition c).breakSequence = { s.closeSequence with
      attention := s.brokenPosting { s.attention with conditions := s.attention.conditions ||| c.set, attn := true } } := by
  have closed : (s.setCondition c).closeSequence = { s.closeSequence with attention := (s.setCondition c).attention } :=
    (State.closeSequence_like (s := s) (r := s.setCondition c) rfl rfl rfl).trans
      (congrArg (fun r : State => { r with attention := (s.setCondition c).attention }) s.closeSequence_touches).symm
  rw [State.breakSequence_closed, closed, ← State.setCondition_attention_eq]
  rfl

/-- What a header fault leaves (R129, R130). -/
theorem State.headerFault_eq {s : State} (pending : s.line.idlePending = false) (c : LineCondition) :
    s.headerFault c = { s.closeSequence with
      attention := s.brokenPosting { s.attention with conditions := s.attention.conditions ||| c.set, attn := true }
      line := { s.line with seq := none }.quieted .skipping } := by
  have fault : s.headerFault c = ((s.setCondition c).breakSequence).enterQuiet .skipping := rfl
  rw [fault, State.enterQuiet_of_not_pending (by rw [State.breakSequence_line]; exact pending), State.breakSequence_line,
    State.setCondition_breakSequence]
  rfl

/-- What every header fault leaves alone, and what it sets (R129, R130). -/
theorem State.headerFault_effect {s : State} (mode : s.line.mode = .listen) (pending : s.line.idlePending = false)
    (c : LineCondition) :
    ∃ t : State, Host.Outcome.next (s.headerFault c) = (.next t : Result) ∧ t.line.mode = .listen ∧ t.line.phase = .skipping ∧
      t.line.frame = s.line.frame ∧ t.line.seq = none ∧ t.attention.conditions = s.attention.conditions ||| c.set ∧
      t.attention.attn = true ∧ t.table.index = s.table.index ∧ t.table.inFlight = s.table.inFlight ∧
      t.claims = s.claims ∧ t.host = s.host ∧ t.pool.bytes = s.pool.bytes ∧ QueueKept s t ∧
      (s.line.seq = none → t.table = s.table ∧ t.pool = s.pool ∧ t.attention.records = s.attention.records ∧
        t.attention.list = s.attention.list) ∧
      (∀ q : SequenceContext, s.line.seq = some q →
        t.table = s.closeSequence.table ∧ t.pool = s.closeSequence.pool ∧
          t.attention.records = (s.attention.post q.entry (1#13 <<< 7)).records ∧
          t.attention.list = (s.attention.post q.entry (1#13 <<< 7)).list) := by
  refine ⟨_, congrArg Host.Outcome.next (State.headerFault_eq pending c), mode, rfl, rfl, rfl, ?_, ?_,
    s.closeSequence_index, s.closeSequence_inFlight, s.closeSequence_claims, s.closeSequence_host, s.closeSequence_bytes,
    s.closeSequence_reports.queue, fun seq => ?_, fun q seq => ?_⟩
  · cases seq : s.line.seq <;> simp only [State.brokenPosting, seq] <;> rfl
  · cases seq : s.line.seq with
    | none => simp only [State.brokenPosting, seq]
    | some q =>
      simp only [State.brokenPosting, seq, AttentionUnit.post_attn]
      exact (congrArg (_ || ·) (c.joined_nonempty s.attention.conditions)).trans (Bool.or_true _)
  · simp only [State.closeSequence_none seq, State.brokenPosting, seq, and_self]
  · simp only [State.brokenPosting, seq]
    exact ⟨trivial, trivial, rfl, rfl⟩

/-- An action field of 6 or 7 names no action (R94). -/
theorem Action.ofCode_eq_none {a : BitVec 3} (unknown : 6 ≤ a.toNat) : Action.ofCode a = none := by
  revert a
  decide

/-- Settles O38: a kept character by its place, and one effect for the five faults. -/
theorem headerCharactersAreKeptOrFault : Obligations.HeaderCharactersAreKeptOrFault := by
  refine ⟨fun b s mode phase => ⟨fun header => ?_, fun header => ?_⟩, fun c bit s mode phase pending fault => ?_⟩
  · rw [exec_headerCharacter mode phase, State.headerByte, header]
    simp only [State.keepHeader, header]
    rfl
  · rw [exec_headerCharacter mode phase]
    match h : s.line.header, header with
    | [x], _ => simp only [State.headerByte, State.keepHeader, h]
    | [x, y], _ => simp only [State.headerByte, State.keepHeader, h]
  · have faults : ∃ cond : LineCondition, exec c s = .next (s.headerFault cond) ∧ bit = cond.set := by
      rcases fault with ⟨b, rfl, rfl⟩ | ⟨b, rfl, header, wrong, rfl⟩ | ⟨b, h1, h2, rfl, header, wrong, rfl⟩ |
        ⟨h, a, tag, rfl, awaits, unknown, rfl⟩ | ⟨rfl, rfl⟩
      · exact ⟨.headerFraming, congrArg Host.Outcome.next (if_pos ⟨mode, phase⟩), rfl⟩
      · refine ⟨.syncBad, (exec_headerCharacter mode phase b).trans (congrArg Host.Outcome.next ?_), rfl⟩
        simp only [State.headerByte, header]
        exact if_neg wrong
      · refine ⟨.headerCheck, (exec_headerCharacter mode phase b).trans (congrArg Host.Outcome.next ?_), rfl⟩
        simp only [State.headerByte, header]
        exact if_neg wrong
      · refine ⟨.unknownAction, (exec_headerCharacter mode phase _).trans (congrArg Host.Outcome.next ?_), rfl⟩
        obtain ⟨_, _, header, _⟩ := awaits
        obtain ⟨_, action, _⟩ := headerBytesReadBack.1 h a tag
        simp only [State.headerByte, header, if_true, State.decodeHeader, action, Action.ofCode_eq_none unknown]
      · exact ⟨.headerOvertime, congrArg Host.Outcome.next (if_pos ⟨mode, phase⟩), rfl⟩
    obtain ⟨cond, runs, rfl⟩ := faults
    rw [runs]
    exact State.headerFault_effect mode pending cond

end Sys2Proof.Machine
end

section
/-! PROOFS. The tick: ages, leases and the idle limit, and the expiries by themselves (O32 to O34). -/

namespace Sys2Proof.Machine

/-! ## The postings of a tick -/

theorem AttentionRecord.keep_bit {r : AttentionRecord} {i : Nat} (h : r.causes.getLsbD i = true) (c : CauseSet) :
    (r.keep c).causes.getLsbD i = true := by
  rw [AttentionRecord.keep_eq]
  split
  · exact h
  · rw [BitVec.getLsbD_or, h, Bool.true_or]

theorem AttentionRecord.keepAll_bit {r : AttentionRecord} {i : Nat} (h : r.causes.getLsbD i = true)
    (ps : List (EntryNo × CauseSet)) : (ps.foldl (fun r p => r.keep p.2) r).causes.getLsbD i = true := by
  induction ps generalizing r with
  | nil => exact h
  | cons p ps ih => exact ih (AttentionRecord.keep_bit h p.2)

/-- A posting among several is kept where the mask and the posting state keep it (R156). -/
theorem AttentionRecord.keepAll_posts {r : AttentionRecord} {ps : List (EntryNo × CauseSet)} {p : EntryNo × CauseSet} {i : Nat}
    (mem : p ∈ ps) (posts : p.2.getLsbD i = true) (opened : r.posting ≠ .closed) (mask : r.mask.getLsbD i = true) :
    (ps.foldl (fun r p => r.keep p.2) r).causes.getLsbD i = true := by
  induction ps generalizing r with
  | nil => cases mem
  | cons x xs ih =>
    rcases List.mem_cons.1 mem with rfl | later
    · refine AttentionRecord.keepAll_bit (r := r.keep p.2) ?_ xs
      rw [AttentionRecord.keep_eq, if_neg opened, BitVec.getLsbD_or, BitVec.getLsbD_and, posts, mask, Bool.and_self,
        Bool.or_true]
    · exact ih later (by rwa [AttentionRecord.keep_posting]) (by rwa [AttentionRecord.keep_mask])

theorem AttentionUnit.postTick_posts (u : AttentionUnit) (k : Nat) {ps : List (EntryNo × CauseSet)} {e : EntryNo}
    {c : CauseSet} {i : Nat} (mem : (e, c) ∈ ps) (posts : c.getLsbD i = true) (opened : (u.record e).posting ≠ .closed)
    (mask : (u.record e).mask.getLsbD i = true) :
    ((u.postTick k ps).record e).causes.getLsbD i = true ∧
      ((u.record e).causes = 0#13 → e ∈ (u.postTick k ps).list) := by
  have kept : ((u.postTick k ps).record e).causes.getLsbD i = true := by
    rw [AttentionUnit.postTick_record]
    exact AttentionRecord.keepAll_posts (List.mem_filter.2 ⟨mem, by simp⟩) posts opened mask
  refine ⟨kept, fun none => (AttentionUnit.postTick_mem u k ps e).2 (.inr ⟨none, fun zero => ?_⟩)⟩
  rw [zero, BitVec.getLsbD_zero] at kept
  cases kept

/-- The postings a tick makes: STALE for what expires, CLAIM_ENDED for the leases that run out, SEG_BROKEN for the
sequence that the idle limit closes. -/
def State.tickPostings (s : State) : List (EntryNo × CauseSet) :=
  s.table.tickPostings ++ s.claims.tickPostings ++ s.line.idleTicked.idlePostings

theorem State.tick_attention (s : State) : s.tick.attention = s.attention.postTick s.orderCount s.tickPostings := by
  rw [State.tick_eq]
  rfl

theorem State.mem_tickPostings_stale {s : State} {e : EntryNo} (expires : (s.entry e).advance.expires = true) :
    (e, Cause.set .stale) ∈ s.tickPostings :=
  List.mem_append_left _ (List.mem_append_left _ (List.mem_map_of_mem (List.mem_filter.2 ⟨List.mem_finRange e, expires⟩)))

theorem State.mem_tickPostings_claimEnded {s : State} {k : SlotNo} {e : EntryNo}
    (expires : (s.claims.slot k).expiring = some e) : (e, Cause.set .claimEnded) ∈ s.tickPostings :=
  List.mem_append_left _ (List.mem_append_right _
    (List.mem_map_of_mem (List.mem_filterMap.2 ⟨k, List.mem_finRange k, expires⟩)))

theorem State.mem_tickPostings_segBroken {s : State} {q : SequenceContext} (due : s.line.idleTicked.idleDue = true)
    (quiet : s.line.phase.quiet = true) (seq : s.line.seq = some q) :
    (q.entry, Cause.set .segBroken) ∈ s.tickPostings := by
  have ticked : s.line.idleTicked.phase.quiet = true ∧ s.line.idleTicked.seq = some q := by
    rw [LineUnit.idleTicked_eq]
    exact ⟨quiet, seq⟩
  refine List.mem_append_right _ ?_
  simp [LineUnit.idlePostings, due, ticked]

/-! ## What a tick does to the blocks -/

theorem exec_tick {s : State} (stage : s.host.stage = .complete) : exec .tick s = .next s.tick :=
  congrArg Host.Outcome.next (if_pos stage)

/-- The machine after a tick's counts and its idle expiry, before its postings (R54, R150). -/
def State.expired (s : State) : State :=
  if s.line.idleTicked.idleDue = true then s.counted.idleExpired else s.counted

theorem State.tick_expired (s : State) :
    s.tick = { s.expired with attention := s.tick.attention, orderCount := s.orderCount + 1 } := by
  rw [State.tick_attention]
  exact s.tick_eq

theorem State.counted_entry (s : State) (e : EntryNo) : s.counted.entry e = (s.entry e).ticked :=
  s.table.ticked_entry e

theorem Phase.quiet_iff (p : Phase) : p.quiet = true ↔ p = .waiting ∨ p = .skipping ∨ p = .recovering := by
  cases p <;> simp [Phase.quiet]

/-- The idle expiry of a tick is due as the statements say it (R150). -/
theorem State.idleExpiryDue_iff (s : State) :
    s.idleExpiryDue ↔ s.line.idleTicked.idleDue = true ∧ s.line.phase.quiet = true := by
  rw [LineUnit.idleDue_iff, LineUnit.idleTicked_eq, Phase.quiet_iff, State.idleExpiryDue]
  dsimp only
  have target : ∀ limit : Nat, idleTarget limit = 1000 * limit := fun _ => rfl
  constructor
  · rintro ⟨mode, limit, ⟨n, idle, full⟩, quiet⟩
    exact ⟨⟨mode, limit, by rw [if_pos mode, idle, target, ← full]; rfl⟩, quiet⟩
  · rintro ⟨⟨mode, limit, idle⟩, quiet⟩
    rw [if_pos mode, Option.map_eq_some_iff] at idle
    exact ⟨mode, limit, idle, quiet⟩

/-- An idle expiry that comes at once, or is held pending, or is not due (R150). -/
theorem State.expired_cases (s : State) :
    (s.idleExpiryDue ∧ s.expired = s.counted.closeSequence.quitListen .dormant) ∨
      ¬ s.idleExpiryDue ∧ s.expired = { s.counted with line :=
        if s.line.idleTicked.idleDue = true then { s.line.idleTicked with idlePending := true } else s.line.idleTicked } := by
  rw [State.idleExpiryDue_iff]
  have phase : s.counted.line.phase = s.line.phase := by simp only [State.counted, LineUnit.idleTicked_eq]
  unfold State.expired State.idleExpired
  rw [phase]
  split
  · next due =>
    split
    · next quiet => exact .inl ⟨⟨due, quiet⟩, rfl⟩
    · next busy => exact .inr ⟨fun h => busy h.2, rfl⟩
  · next early => exact .inr ⟨fun h => early h.1, rfl⟩

theorem State.expired_claims (s : State) : s.expired.claims = s.counted.claims := by
  rcases s.expired_cases with ⟨_, eq⟩ | ⟨_, eq⟩ <;> rw [eq]
  exact s.counted.closeSequence_claims

theorem State.tick_slot (s : State) (k : SlotNo) : s.tick.claims.slot k = (s.claims.slot k).ticked := by
  rw [State.tick_expired, State.expired_claims]
  exact s.claims.slot_ticked k

/-! ## What closing a sequence gives up -/

/-- What closing a sequence gives up is read from the pin, the staged and held copies and the sequence alone. -/
theorem State.closeSequence_gives {s r : State} (seq : r.line.seq = s.line.seq) (pin : r.table.pin = s.table.pin)
    (pool : r.pool = s.pool)
    (copies : ∀ e : EntryNo, (r.entry e).staged = (s.entry e).staged ∧ (r.entry e).held = (s.entry e).held) :
    r.closeSequence.table.pin = s.closeSequence.table.pin ∧ r.closeSequence.pool = s.closeSequence.pool ∧
      ∀ e : EntryNo, (r.closeSequence.entry e).staged = (s.closeSequence.entry e).staged ∧
        (r.closeSequence.entry e).held = (s.closeSequence.entry e).held := by
  have staged (e : EntryNo) : (r.table.entry e).staged = (s.table.entry e).staged := (copies e).1
  have held (e : EntryNo) : (r.table.entry e).held = (s.table.entry e).held := (copies e).2
  rw [State.closeSequence_eq, State.closeSequence_eq, seq]
  split
  · exact ⟨pin, pool, copies⟩
  · rw [State.releasePin_eq, State.releasePin_eq, pin]
    split
    · exact ⟨pin, pool, copies⟩
    · exact ⟨rfl, pool, copies⟩
    · next e _ _ =>
      simp only [State.freeHeld_eq, State.setPin, State.setSeq, State.entry]
      refine ⟨rfl, congrArg₂ CellPool.release pool (by simp only [TableController.entry_eta, held e]), fun d => ?_⟩
      by_cases hd : d = e
      · subst hd
        simp [staged]
      · simp [hd, staged, held]
  · next e _ _ _ _ =>
    simp only [State.freeStaged_eq, State.setSeq, State.entry]
    refine ⟨pin, congrArg₂ CellPool.release pool (by rw [staged e]), fun d => ?_⟩
    by_cases hd : d = e
    · subst hd
      simp [held]
    · simp [hd, staged, held]

/-- Closing a sequence that owns the pin, or leaves it alone, touches the copies of its own entry only (R46, R53). -/
theorem SequenceClosed.other {s u : State} (closed : SequenceClosed s u) {q : SequenceContext} (seq : s.line.seq = some q)
    (own : ∀ p : Pin, s.table.pin = some p → p.entry = q.entry) {e : EntryNo} (other : e ≠ q.entry) :
    u.entry e = s.entry e := by
  obtain ⟨⟨_, gives⟩, _⟩ := closed
  obtain ⟨serve, assemble⟩ := gives q seq
  cases kind : q.kind with
  | assemble =>
    obtain ⟨_, _, others, _⟩ := assemble kind
    exact others e other
  | serve =>
    obtain ⟨_, current, held⟩ := serve kind
    by_cases pinned : ∃ p : Pin, s.table.pin = some p ∧ p.kind = .held
    · obtain ⟨p, pin, kept⟩ := pinned
      obtain ⟨_, others, _⟩ := held p pin kept
      exact others e fun h => other (h.trans (own p pin))
    · obtain ⟨entries, _⟩ := current fun p pin => by
        cases kept : p.kind with
        | current => rfl
        | held => exact absurd ⟨p, pin, kept⟩ pinned
      simp only [State.entry, TableController.entry, entries]

/-! ## What the blocks hold after a tick -/

theorem Entry.ticked_copies (x : Entry) : x.ticked.staged = x.staged ∧ x.ticked.held = x.held := by
  unfold Entry.ticked
  split <;> exact ⟨rfl, rfl⟩

/-- An entry after a tick, but for the copies that an idle expiry gives up (R55, R150). -/
theorem State.tick_entry (s : State) (e : EntryNo) :
    s.tick.entry e = { (s.entry e).ticked with staged := (s.tick.entry e).staged, held := (s.tick.entry e).held } := by
  have eq : s.tick.entry e = s.expired.entry e :=
    (congrArg (fun r : State => r.entry e) s.tick_expired).trans rfl
  rw [eq, ← State.counted_entry]
  rcases s.expired_cases with ⟨_, eq⟩ | ⟨_, eq⟩ <;> rw [eq]
  · exact s.counted.closeSequence_entry e
  · rfl

/-- A tick that brings no idle expiry at once leaves the pin, the pool and the copies alone. -/
theorem State.tick_keeps_copies {s : State} (early : ¬ s.idleExpiryDue) :
    s.tick.table.pin = s.table.pin ∧ s.tick.pool = s.pool ∧
      ∀ e : EntryNo, (s.tick.entry e).staged = (s.entry e).staged ∧ (s.tick.entry e).held = (s.entry e).held := by
  rcases s.expired_cases with ⟨due, _⟩ | ⟨_, eq⟩
  · exact absurd due early
  · rw [State.tick_expired, eq]
    refine ⟨rfl, rfl, fun e => ?_⟩
    show (s.counted.entry e).staged = _ ∧ (s.counted.entry e).held = _
    rw [State.counted_entry]
    exact (s.entry e).ticked_copies

/-- A tick that brings an idle expiry at once gives up what closing the sequence gives up. -/
theorem State.tick_gives_copies {s : State} (due : s.idleExpiryDue) :
    s.tick.table.pin = s.closeSequence.table.pin ∧ s.tick.pool = s.closeSequence.pool ∧
      ∀ e : EntryNo, (s.tick.entry e).staged = (s.closeSequence.entry e).staged ∧
        (s.tick.entry e).held = (s.closeSequence.entry e).held := by
  rcases s.expired_cases with ⟨_, eq⟩ | ⟨early, _⟩
  · rw [State.tick_expired, eq]
    refine State.closeSequence_gives (s := s) (r := s.counted) ?_ rfl rfl fun e => ?_
    · simp only [State.counted, LineUnit.idleTicked_eq]
    · rw [State.counted_entry]
      exact (s.entry e).ticked_copies
  · exact absurd due early

/-! ## Ages and freshness (R55, R56, R58, R61) -/

theorem exec_freshnessExpiry_expires {s : State} {e : EntryNo} (expires : (s.entry e).expires = true) :
    exec (.freshnessExpiry e) s = .next ((s.setEntry e { s.entry e with state := .stale }).post e .stale) :=
  congrArg Host.Outcome.next (if_pos expires)

theorem Entry.ticked_rests {x : Entry} (rests : x.ageRuns = false) (state : x.state ≠ .live) :
    x.ticked = { x with amended := false } := by
  simp [Entry.ticked, Entry.advance, Entry.expires, rests, state]

theorem Entry.ticked_runs {x : Entry} (runs : x.ageRuns = true)
    (fresh : x.state ≠ .live ∨ x.limit = 0 ∨ min (x.age + 1) 65535 < x.limit) :
    x.ticked = { x with amended := false, age := min (x.age + 1) 65535 } := by
  have advance : x.advance = { x with amended := false, age := min (x.age + 1) 65535 } := by
    simp only [Entry.advance, runs, if_true]
    rfl
  have expires : x.advance.expires = false := by
    rw [advance, Entry.expires, decide_eq_false_iff_not]
    rintro ⟨live, _, limit, old⟩
    rcases fresh with h | h | h
    · exact h live
    · exact limit h
    · exact Nat.not_le.2 h old
  rw [Entry.ticked, expires, advance]
  rfl

theorem Entry.advance_expires {x : Entry} (live : x.state = .live) (limit : x.limit ≠ 0)
    (old : x.limit ≤ min (x.age + 1) 65535) : x.advance.expires = true := by
  simp only [Entry.expires, Entry.advance, Entry.ageRuns, live, if_true, decide_eq_true_eq]
  exact ⟨trivial, trivial, limit, old⟩

theorem Entry.ticked_expires {x : Entry} (live : x.state = .live) (limit : x.limit ≠ 0)
    (old : x.limit ≤ min (x.age + 1) 65535) :
    x.ticked = { x with amended := false, age := min (x.age + 1) 65535, state := .stale } := by
  rw [Entry.ticked, if_pos (Entry.advance_expires live limit old)]
  simp only [Entry.advance, Entry.ageRuns, live, if_true]
  rfl

/-- Settles O32: the entries are ticked one by one, and the copies go with the idle expiry alone. -/
theorem tickAgesAndExpires : Obligations.TickAgesAndExpires := by
  refine ⟨fun e s live limit old => ⟨fun fresh => ?_, fun amended => ?_⟩, fun s stage => ?_⟩
  · have expires : (s.entry e).expires = true := by
      simp only [Entry.expires, decide_eq_true_eq]
      exact ⟨live, fresh, limit, old⟩
    exact ⟨_, exec_freshnessExpiry_expires expires, s.entry_setEntry_self e _,
      ⟨fun d hd => s.entry_setEntry_ne _ hd, rfl, rfl, rfl⟩, rfl, rfl⟩
  · refine congrArg Host.Outcome.next (if_neg ?_)
    simp [Entry.expires, amended]
  · obtain ⟨index, inFlight, bytes, host⟩ : s.tick.table.index = s.table.index ∧ s.tick.table.inFlight = s.table.inFlight ∧
        s.tick.pool.bytes = s.pool.bytes ∧ s.tick.host = s.host := by
      rw [State.tick_expired]
      rcases s.expired_cases with ⟨_, eq⟩ | ⟨_, eq⟩ <;> rw [eq]
      · exact ⟨s.counted.closeSequence_index, s.counted.closeSequence_inFlight, s.counted.closeSequence_bytes,
          s.counted.closeSequence_host⟩
      · exact ⟨rfl, rfl, rfl, rfl⟩
    refine ⟨_, exec_tick stage, index, inFlight, bytes, host, State.tick_keeps_copies,
      fun due => ⟨⟨_, s.closeSequence_closed, State.tick_gives_copies due⟩, fun q e seq own other => ?_⟩, fun e x ticked => ?_⟩
    · obtain ⟨_, _, copies⟩ := State.tick_gives_copies due
      rw [← s.closeSequence_closed.other seq own other]
      exact copies e
    · have entry := s.tick_entry e
      subst ticked
      refine ⟨fun rests => ?_, fun runs => ?_, fun retiring bare => ?_, fun live => ⟨fun limit old => ⟨?_, fun opened mask => ?_⟩, fun fresh => ?_⟩⟩
      · rw [Entry.ticked_rests (by rcases rests with h | h | h <;> simp [Entry.ageRuns, h])
          (by rcases rests with h | h | h <;> simp [h])] at entry
        exact entry
      · rw [Entry.ticked_runs (by rcases runs with h | ⟨h, copy⟩ <;> simp [Entry.ageRuns, *])
          (.inl (by rcases runs with h | ⟨h, _⟩ <;> simp [h]))] at entry
        exact entry
      · rw [Entry.ticked_rests (by simp [Entry.ageRuns, retiring, bare]) (by simp [retiring])] at entry
        exact entry
      · rw [Entry.ticked_expires live limit old] at entry
        exact entry
      · rw [State.tick_attention]
        exact AttentionUnit.postTick_posts _ _ (State.mem_tickPostings_stale (Entry.advance_expires live limit old)) rfl
          opened mask
      · rw [Entry.ticked_runs (by simp [Entry.ageRuns, live]) (.inr fresh)] at entry
        exact entry

/-! ## Leases (R72, R73) -/

/-- Settles O33: every slot is ticked by itself, and the expired ones post CLAIM_ENDED. -/
theorem tickRunsLeasesDown : Obligations.TickRunsLeasesDown := by
  refine ⟨fun k e tag s slot => ?_, fun s stage => ⟨_, exec_tick stage, ?_, fun k => ⟨fun other => ?_,
    fun e tag lease slot => ⟨fun running => ?_, fun last => ⟨?_, fun opened mask => ?_⟩⟩⟩⟩⟩
  · show execLeaseExpiry k s = _
    simp only [execLeaseExpiry, slot]
    rfl
  · rw [State.tick_expired, State.expired_claims]
    rfl
  · rw [State.tick_slot]
    cases slot : s.claims.slot k with
    | heldLine e tag lease => exact absurd slot (other e tag lease)
    | _ => rfl
  · rw [State.tick_slot, slot, Slot.ticked, if_neg (by omega)]
  · rw [State.tick_slot, slot, Slot.ticked, if_pos (by omega)]
  · rw [State.tick_attention]
    refine (AttentionUnit.postTick_posts _ _ (State.mem_tickPostings_claimEnded (k := k) ?_) rfl opened mask).1
    rw [slot, Slot.expiring, if_pos (by omega)]

/-! ## The idle limit (R150) -/

/-- The Line Unit after a tick (R150). -/
theorem State.tick_line (s : State) :
    (s.idleExpiryDue ∧ s.tick.line = { s.counted.line with seq := none }.quit .dormant) ∨
      ¬ s.idleExpiryDue ∧ s.tick.line =
        if s.line.idleTicked.idleDue = true then { s.line.idleTicked with idlePending := true } else s.line.idleTicked := by
  rw [State.tick_expired]
  rcases s.expired_cases with ⟨due, eq⟩ | ⟨early, eq⟩ <;> rw [eq]
  · exact .inl ⟨due, congrArg (LineUnit.quit · .dormant) s.counted.closeSequence_line⟩
  · exact .inr ⟨early, rfl⟩

theorem LineUnit.idleTicked_listen {l : LineUnit} {n : Nat} (mode : l.mode = .listen) (idle : l.idle = some n) :
    l.idleTicked = { l with idle := some (n + 1) } := by
  rw [LineUnit.idleTicked_eq, if_pos mode, idle]
  rfl

theorem exec_idleExpiry_quiet {s : State} (due : s.line.idleDue = true) (pending : s.line.idlePending = false)
    (quiet : s.line.phase.quiet = true) : exec .idleExpiry s = .next (s.leaveListen .dormant) :=
  congrArg Host.Outcome.next ((if_pos ⟨due, pending⟩).trans (if_pos quiet))

theorem exec_idleExpiry_busy {s : State} (due : s.line.idleDue = true) (pending : s.line.idlePending = false)
    (busy : s.line.phase.quiet = false) :
    exec .idleExpiry s = .next { s with line := { s.line with idlePending := true } } :=
  congrArg Host.Outcome.next ((if_pos ⟨due, pending⟩).trans (if_neg (by simp [busy])))

theorem exec_deferredIdleExpiry_settles {s : State} (mode : s.line.mode = .listen) (pending : s.line.idlePending = true)
    (quiet : s.line.phase.quiet = true) : exec .deferredIdleExpiry s = .next (s.leaveListen .dormant) :=
  congrArg Host.Outcome.next (if_pos ⟨mode, pending, quiet⟩)

theorem State.enterQuiet_of_pending {s : State} (mode : s.line.mode = .listen) (pending : s.line.idlePending = true)
    {p : Phase} (quiet : p.quiet = true) :
    s.enterQuiet p = { s with line := s.line.quieted p }.leaveListen .dormant := if_pos ⟨mode, pending, quiet⟩

theorem Phase.not_quiet {p : Phase} (busy : p = .inBreak ∨ p = .header ∨ p.inFlight = true) : p.quiet = false := by
  rcases busy with rfl | rfl | flight
  · rfl
  · rfl
  · cases p <;> simp_all [Phase.inFlight, Phase.quiet]

/-- Settles O34: the tick's line by the idle count and the phase, and leaving LISTEN for the expiries by themselves. -/
theorem idleLimitLeadsToDormant : Obligations.IdleLimitLeadsToDormant := by
  refine ⟨fun n s stage mode idle => ⟨_, exec_tick stage, fun early => ?_, fun limit full => ⟨fun busy => ?_, fun quiet => ?_⟩⟩,
    fun c s mode quiet expiry => ?_, fun s mode phase short pending => ?_,
    fun s mode busy limit idle pending => exec_idleExpiry_busy ((LineUnit.idleDue_iff _).2 ⟨mode, limit, idle⟩) pending
      (Phase.not_quiet busy)⟩
  · have notDue : ¬ s.line.idleTicked.idleDue = true := by
      rw [LineUnit.idleDue_iff, LineUnit.idleTicked_listen mode idle]
      rintro ⟨_, limit, full⟩
      exact early.elim limit (· (Option.some.inj full))
    rcases s.tick_line with ⟨due, _⟩ | ⟨_, line⟩
    · obtain ⟨ticked, _⟩ := (State.idleExpiryDue_iff s).1 due
      exact absurd ticked notDue
    · rw [line, if_neg notDue, LineUnit.idleTicked_listen mode idle]
  · have due : s.line.idleTicked.idleDue = true := by
      rw [LineUnit.idleDue_iff, LineUnit.idleTicked_listen mode idle]
      exact ⟨mode, limit, congrArg some full⟩
    rcases s.tick_line with ⟨now, _⟩ | ⟨_, line⟩
    · obtain ⟨_, quiet⟩ := (State.idleExpiryDue_iff s).1 now
      exact absurd quiet (by simp [Phase.not_quiet busy])
    · rw [line, if_pos due, LineUnit.idleTicked_listen mode idle]
  · have due : s.idleExpiryDue := ⟨mode, limit, ⟨n, idle, full⟩, quiet⟩
    rcases s.tick_line with ⟨_, line⟩ | ⟨early, _⟩
    · rw [line]
      refine ⟨rfl, rfl, rfl, rfl, rfl, rfl, ⟨_, s.closeSequence_closed, State.tick_gives_copies due⟩, fun q seq opened mask => ?_⟩
      rw [State.tick_attention]
      obtain ⟨dueNow, quietNow⟩ := (State.idleExpiryDue_iff s).1 due
      exact AttentionUnit.postTick_posts _ _ (State.mem_tickPostings_segBroken dueNow quietNow seq) rfl opened mask
    · exact absurd due early
  · have leaves : exec c s = .next (s.leaveListen .dormant) := by
      rcases expiry with ⟨rfl, limit, idle, pending⟩ | ⟨rfl, pending⟩
      · exact exec_idleExpiry_quiet ((LineUnit.idleDue_iff _).2 ⟨mode, limit, idle⟩) pending ((Phase.quiet_iff _).2 quiet)
      · exact exec_deferredIdleExpiry_settles mode pending ((Phase.quiet_iff _).2 quiet)
    refine ⟨_, leaves, by rw [State.leaveListen_line]; rfl, by rw [State.leaveListen_line]; rfl,
      by rw [State.leaveListen_line]; rfl, s.leaveListen_seq _, by rw [State.leaveListen_line]; rfl,
      by rw [State.leaveListen_line]; rfl, s.leaveListen_claims _, s.leaveListen_host _,
      by rw [State.leaveListen_pool]; exact s.closeSequence_bytes, s.leaveListen_attention _,
      fun none => by rw [State.leaveListen_none none]; rfl, _, s.closeSequence_closed, ?_⟩
    rw [State.leaveListen_eq]
  · refine ⟨_, exec_runShortOfBreak_inBreak mode phase short, ?_⟩
    rw [State.enterQuiet_of_pending mode pending rfl, State.leaveListen_line]
    rfl

end Sys2Proof.Machine
end

section
/-! PROOFS. Frames that fail: what every block is left with, by the action (R103), and the collisions, breaks and
abandonments that end a frame so (O26, O37, O45). -/

namespace Sys2Proof.Machine

/-! ## The reports of a frame's end -/

/-- A request that waits is taken before the reports; where none waits the reports come at once (R66, R103). -/
theorem State.frameEnd_of_entry {s : State} {e : EntryNo} (served : s.serveRequest = s) (entry : s.line.frame.entry = some e)
    (how : FrameEnd) :
    s.frameEnd how = ((s.reportToClaims how e).setInFlight none).reportToTable how e := by
  simp only [State.frameEnd, served, State.reportEnd, entry]

/-- The ways in which a frame in flight ends without taking effect. -/
def FrameEnd.fails : FrameEnd → Bool
  | .completed | .received => false
  | .faulty | .collided | .cut | .abandoned => true

theorem FrameEnd.fails_ne {how : FrameEnd} (failed : how.fails = true) : how ≠ .completed ∧ how ≠ .received := by
  cases how <;> simp_all [FrameEnd.fails]

theorem EntryState.ne_retiring_of_working {x : EntryState} (working : x.working = true) : x ≠ .retiring := by
  rintro rfl
  cases working

section
variable {s : State} {e : EntryNo} {how : FrameEnd} (served : s.serveRequest = s) (entry : s.line.frame.entry = some e)
  (working : (s.entry e).state.working = true) (failed : how.fails = true)
include served entry working failed

theorem State.frameEnd_answerFails (action : s.line.frame.action = some .fetch) (role : (s.entry e).role = .source) :
    s.frameEnd how = (s.setInFlight none).releasePin.breakSequence := by
  have claims : s.reportToClaims how e = s := by simp only [State.reportToClaims, action]
  obtain ⟨completed, _⟩ := FrameEnd.fails_ne failed
  rw [State.frameEnd_of_entry served entry, claims]
  simp [State.reportToTable, EntryState.ne_retiring_of_working working, action, role, State.fetchAnswered, completed]

theorem State.frameEnd_captureFails (action : s.line.frame.action = some .fetch) (role : (s.entry e).role = .mirror) :
    s.frameEnd how = (s.setInFlight none).breakSequence := by
  have claims : s.reportToClaims how e = s := by simp only [State.reportToClaims, action]
  obtain ⟨_, received⟩ := FrameEnd.fails_ne failed
  rw [State.frameEnd_of_entry served entry, claims]
  simp [State.reportToTable, EntryState.ne_retiring_of_working working, action, role, received]

theorem State.frameEnd_claimFails (action : s.line.frame.action = some .claim) :
    s.frameEnd how = s.claimFailed.setInFlight none := by
  obtain ⟨completed, _⟩ := FrameEnd.fails_ne failed
  have claims : s.reportToClaims how e = s.claimFailed := by
    simp only [State.reportToClaims, action, if_neg completed]
  have kept := s.reportToClaims_entry how e e
  have line := s.reportToClaims_line how e
  rw [claims] at kept line
  rw [State.frameEnd_of_entry served entry, claims]
  simp [State.reportToTable, EntryState.ne_retiring_of_working working, line, kept, action]

/-- A STORE, a RELEASE, a PROBE or a RETIRE that fails leaves nothing but the mark undone (R103). -/
theorem State.frameEnd_plainFails {a : Action} (action : s.line.frame.action = some a) (fetch : a ≠ .fetch)
    (claim : a ≠ .claim) : s.frameEnd how = s.setInFlight none := by
  obtain ⟨completed, received⟩ := FrameEnd.fails_ne failed
  rw [State.frameEnd_of_entry served entry]
  have retiring := EntryState.ne_retiring_of_working working
  cases a with
  | fetch => exact absurd rfl fetch
  | claim => exact absurd rfl claim
  | _ => simp [State.reportToClaims, State.reportToTable, retiring, action, completed, received]

end

/-! ## What a FETCH answer gives up -/

theorem State.releasePin_of_no_pin {s : State} (pin : s.table.pin = none) : s.releasePin = s := by
  rw [State.releasePin_eq, pin]

/-- Once the pin is released, closing a SERVE sequence gives up nothing more (R46). -/
theorem State.releasePin_closeSequence {s : State}
    (serve : ∀ q : SequenceContext, s.line.seq = some q → q.kind = .serve) :
    s.releasePin.closeSequence.table = s.releasePin.table ∧ s.releasePin.closeSequence.pool = s.releasePin.pool := by
  cases seq : s.line.seq with
  | none => rw [State.closeSequence_none (by rw [State.releasePin_line]; exact seq)]; exact ⟨rfl, rfl⟩
  | some q =>
    rw [State.closeSequence_serve (q := q) (by rw [State.releasePin_line]; exact seq) (serve q seq),
      State.releasePin_of_no_pin s.releasePin_pin]
    exact ⟨rfl, rfl⟩

theorem PinReleased.congr {s t u : State} (h : PinReleased s t) (table : u.table = t.table) (pool : u.pool = t.pool) :
    PinReleased s u := by
  simpa only [PinReleased, State.entry, table, pool] using h

theorem SequenceGivenUp.congr {s t u : State} (h : SequenceGivenUp s t) (table : u.table = t.table) (pool : u.pool = t.pool) :
    SequenceGivenUp s u := by
  simpa only [SequenceGivenUp, PinReleased, State.entry, table, pool] using h

theorem FrameFails.congr {a : Action} {e : EntryNo} {s t u : State} {after : AttentionUnit} (h : FrameFails a e s t after)
    (table : u.table = t.table) (pool : u.pool = t.pool) (claims : u.claims = t.claims) : FrameFails a e s u after where
  mark := by rw [table]; exact h.mark
  index := by rw [table]; exact h.index
  bytes := by rw [pool]; exact h.bytes
  answer ha hr hq := (h.answer ha hr hq).congr table pool
  capture ha hr := (h.capture ha hr).congr table pool
  other ha := by rw [table, pool]; exact h.other ha
  claims ha := by rw [claims]; exact h.claims ha
  unclaimed ha hk := by rw [claims]; exact h.unclaimed ha hk
  reserved k t l r ha hk := by rw [claims]; exact h.reserved k t l r ha hk
  broken := h.broken
  quiet := h.quiet

/-- A frame's failure is told without the Host Port. -/
theorem FrameFails.of_host {a : Action} {e : EntryNo} {s t : State} {x : HostPort} {after : AttentionUnit}
    (h : FrameFails a e { s with host := x } t after) : FrameFails a e s t after :=
  ⟨h.mark, h.index, h.bytes, h.answer, h.capture, h.other, h.claims, h.unclaimed, h.reserved, h.broken, h.quiet⟩

/-- A failed frame, with the Line Unit and the entries: only its sequence context goes, and of an entry at most its staged
and its held copy. -/
structure FailsOnly (a : Action) (e : EntryNo) (s t : State) : Prop where
  effect : FrameFails a e s t t.attention
  line : t.line = { s.line with seq := if a = .fetch then none else s.line.seq }
  entry : ∀ d : EntryNo, t.entry d = { s.entry d with staged := (t.entry d).staged, held := (t.entry d).held }
  conditions : t.attention.conditions = s.attention.conditions
  host : t.host = s.host
  queue : QueueKept s t

/-- A posting leaves the line conditions alone (R156). -/
@[simp] theorem AttentionUnit.post_keeps_conditions (u : AttentionUnit) (e : EntryNo) (c : CauseSet) :
    (u.post e c).conditions = u.conditions := rfl

@[simp] theorem State.brokenPosting_keeps_conditions (s : State) (u : AttentionUnit) :
    (s.brokenPosting u).conditions = u.conditions := by
  unfold State.brokenPosting
  split <;> rfl

theorem State.claimFailed_conditions (s : State) : s.claimFailed.attention.conditions = s.attention.conditions := by
  unfold State.claimFailed
  repeat' split
  all_goals rfl

theorem State.claimFailed_none {s : State} (none : ∀ k : SlotNo, (s.claims.slot k).isReserved = false) :
    s.claimFailed = s := by
  simp only [State.claimFailed, (ClaimTable.reservedSlot_eq_none s.claims).2 none]

theorem State.claimFailed_reserved {s : State} (ok : ClaimsOk s) {e : EntryNo} (entry : s.line.frame.entry = some e)
    {k : SlotNo} {tag : Tag} {lease : Nat} {renewal : Bool} (slot : s.claims.slot k = .reserved e tag lease renewal) :
    s.claimFailed = if renewal then (s.setSlot k .free).post e .claimEnded else s.setSlot k .free := by
  simp only [State.claimFailed, ok.reservedSlot_eq entry slot, slot]

theorem Entry.copies_trans {x y z : Entry} (h : y = { x with staged := y.staged, held := y.held })
    (g : z = { y with staged := z.staged, held := z.held }) : z = { x with staged := z.staged, held := z.held } := by
  rw [h] at g
  exact g

theorem State.releasePin_copies (s : State) (d : EntryNo) :
    s.releasePin.entry d =
      { s.entry d with staged := (s.releasePin.entry d).staged, held := (s.releasePin.entry d).held } := by
  have entry := s.releasePin_entry d
  have staged : (s.releasePin.entry d).staged = (s.entry d).staged := (congrArg Entry.staged entry).trans rfl
  rw [staged]
  exact entry

/-- How every frame that fails on a record that is not RETIRING ends (R71, R103, R110, R127, R137). -/
theorem State.frameEnd_fails {s : State} {a : Action} {e : EntryNo} {how : FrameEnd} (served : s.serveRequest = s)
    (entry : s.line.frame.entry = some e) (action : s.line.frame.action = some a)
    (working : (s.entry e).state.working = true) (failed : how.fails = true) (claims : a = .claim → ClaimsOk s) :
    FailsOnly a e s (s.frameEnd how) := by
  have ends := s.frameEnd_ends how
  by_cases fetch : a = .fetch
  · subst fetch
    cases role : (s.entry e).role with
    | source =>
      rw [State.frameEnd_answerFails served entry working failed action role] at ends ⊢
      have broken := (s.setInFlight none).releasePin.breakSequence_closed
      refine ⟨⟨?_, ?_, ?_, fun _ _ serve => ?_, fun _ mirror => ?_, fun h => absurd rfl h, fun _ => ?_, nofun, nofun,
        fun _ => ?_, fun h => absurd rfl h⟩, ?_, fun d => ?_, ?_, ends.host, ends.queue⟩
      · simp
      · simp
      · simp
      · obtain ⟨table, pool⟩ := State.releasePin_closeSequence (s := s.setInFlight none) serve
        exact PinReleased.congr (s.setInFlight none).releasePin_released (by rw [broken]; exact table)
          (by rw [broken]; exact pool)
      · exact absurd (role.symm.trans mirror) (by decide)
      · simp
      · simp [State.brokenPosting]
      · simp
      · rw [State.breakSequence_entry]
        refine Entry.copies_trans ?_ ((s.setInFlight none).releasePin.closeSequence_entry d)
        exact (s.setInFlight none).releasePin_copies d
      · simp
    | mirror =>
      rw [State.frameEnd_captureFails served entry working failed action role] at ends ⊢
      have broken := (s.setInFlight none).breakSequence_closed
      refine ⟨⟨?_, ?_, ?_, fun _ source => ?_, fun _ _ => ?_, fun h => absurd rfl h, fun _ => ?_, nofun, nofun,
        fun _ => ?_, fun h => absurd rfl h⟩, ?_, fun d => ?_, ?_, ends.host, ends.queue⟩
      · simp
      · simp
      · simp
      · exact absurd (role.symm.trans source) (by decide)
      · obtain ⟨given, _⟩ := (s.setInFlight none).closeSequence_closed
        exact SequenceGivenUp.congr given (by rw [broken]) (by rw [broken])
      · simp
      · simp [State.brokenPosting]
      · simp
      · rw [State.breakSequence_entry]
        exact (s.setInFlight none).closeSequence_entry d
      · simp
  · by_cases claim : a = .claim
    · subst claim
      rw [State.frameEnd_claimFails served entry working failed action] at ends ⊢
      obtain ⟨completed, _⟩ := FrameEnd.fails_ne failed
      have report : s.reportToClaims how e = s.claimFailed := by
        simp only [State.reportToClaims, action, if_neg completed]
      have frame := s.reportToClaims_frame how e
      rw [report] at frame
      have table : s.claimFailed.table = s.table := by rw [frame]
      have pool : s.claimFailed.pool = s.pool := by rw [frame]
      refine ⟨⟨rfl, ?_, ?_, nofun, nofun, fun _ => ⟨?_, pool⟩, fun h => absurd rfl h, fun _ none => ?_,
        fun k tag lease renewal _ slot => ?_, nofun, fun _ h => absurd rfl h⟩, ?_, fun d => ?_, ?_, ends.host, ends.queue⟩
      · rw [State.setInFlight_table, table]
      · rw [State.setInFlight_pool, pool]
      · rw [State.setInFlight_table, table]
      · rw [State.claimFailed_none none]
        exact ⟨rfl, rfl⟩
      · rw [State.claimFailed_reserved (claims rfl) entry slot]
        cases renewal <;> exact ⟨rfl, rfl⟩
      · rw [State.setInFlight_line, frame, if_neg fetch]
      · rw [State.setInFlight_entry, frame]
        rfl
      · exact s.claimFailed_conditions
    · rw [State.frameEnd_plainFails served entry working failed action fetch claim] at ends ⊢
      exact ⟨⟨rfl, rfl, rfl, fun h => absurd h fetch, fun h => absurd h fetch, fun _ => ⟨rfl, rfl⟩, fun _ => rfl,
        fun h => absurd h claim, fun _ _ _ _ h => absurd h claim, fun h => absurd h fetch, fun _ _ => rfl⟩,
        by rw [if_neg fetch]; rfl, fun _ => rfl, rfl, ends.host, ends.queue⟩

theorem State.serveRequest_answering {s : State} (phase : s.line.phase = .answering) : s.serveRequest = s :=
  State.serveRequest_of_not_space (by simp [phase])

theorem State.postFrame_of_entry {s : State} {e : EntryNo} (entry : s.line.frame.entry = some e) (c : Cause) :
    s.postFrame c = s.post e c := by
  simp only [State.postFrame, entry]

/-- A frame that fails with a cause against its record (R103, R142). -/
theorem FailsOnly.postFrame {a : Action} {e : EntryNo} {s t : State} (h : FailsOnly a e s t)
    (entry : s.line.frame.entry = some e) (c : Cause) :
    t.postFrame c = { t with attention := t.attention.post e c.set } := by
  rw [State.postFrame_of_entry (e := e) (by rw [h.line]; exact entry)]
  rfl

/-! ## Collisions (R131 to R133) -/

theorem exec_readbackMismatch {s : State} (mode : s.line.mode = .listen) (phase : s.line.phase = .answering)
    (offline : s.host.work ≠ some .offline) (restart : s.host.work ≠ some .restart) :
    exec .readbackMismatch s = .next { s with line := { s.line with collided := true, txd := .released } } := by
  refine congrArg Host.Outcome.next (if_pos ⟨mode, phase, ?_⟩)
  unfold State.readbackStopped
  split <;> simp_all

theorem exec_collidedCharacterEnd {s : State} (mode : s.line.mode = .listen) (phase : s.line.phase = .answering)
    (mismatch : s.line.collided = true) (offline : s.host.work ≠ some .offline) (restart : s.host.work ≠ some .restart)
    (goesOn : Bool) : exec (.collidedCharacterEnd goesOn) s = .next (s.collidedEnd goesOn) :=
  congrArg Host.Outcome.next
    ((if_pos ⟨mode, phase, mismatch⟩).trans ((if_neg restart).trans (if_neg offline)))

/-- Settles O45: the frame ends as collided, whatever its action, and the phase goes by the event. -/
theorem collisionsEndTheFrame : Obligations.CollisionsEndTheFrame := by
  refine ⟨fun s => exec_readbackMismatch, fun c a e s mode pending event entry action store working role claims => ?_⟩
  have served : s.serveRequest = s := by
    rcases event with ⟨_, _, asking⟩ | ⟨_, phase, _⟩
    · exact State.serveRequest_of_not_asking asking
    · exact State.serveRequest_answering phase
  have fails := State.frameEnd_fails (how := .collided) served entry action working rfl fun _ => claims
  have runs : exec c s = .next { s.frameEnd .collided with
      attention := (s.frameEnd .collided).attention.post e (1#13 <<< 5)
      line := if c = .collidedCharacterEnd true then (s.frameEnd .collided).line.atBreak (s.frameEnd .collided).line.seq
        else (s.frameEnd .collided).line.quieted .skipping } := by
    have collided : s.frameCollided = { s.frameEnd .collided with
        attention := (s.frameEnd .collided).attention.post e (1#13 <<< 5) } := fails.postFrame entry .collided
    have settles : s.frameCollided.enterQuiet .skipping =
        { s.frameCollided with line := s.frameCollided.line.quieted .skipping } :=
      State.enterQuiet_of_not_pending (by rw [collided, fails.line]; exact pending) _
    rw [collided] at settles
    rcases event with ⟨rfl, phase, _⟩ | ⟨⟨goesOn, rfl⟩, phase, mismatch, offline, restart⟩
    · refine congrArg Host.Outcome.next ((if_pos ⟨mode, phase⟩).trans ?_)
      rw [collided, settles]
      rfl
    · refine (exec_collidedCharacterEnd mode phase mismatch offline restart goesOn).trans (congrArg Host.Outcome.next ?_)
      cases goesOn <;> simp only [State.collidedEnd, collided]
      · rw [if_neg Bool.false_ne_true, settles]
        rfl
      · rfl
  refine ⟨_, _, runs, fails.host, fails.queue, fails.effect.congr rfl rfl rfl, rfl, fun other => ?_, fun goesOn => ?_⟩
  · simp only [LineSettles, if_neg other, fails.line]
    rfl
  · simp only [if_pos goesOn, fails.line]
    rfl

/-! ## Breaks (R90, R129, R131, R139) -/

theorem exec_breakRecognised {s : State} (mode : s.line.mode = .listen) : exec .breakRecognised s = .next s.reachBreak :=
  congrArg Host.Outcome.next (if_pos mode)

theorem State.newFrame_eq (s : State) : s.newFrame = { s with line := s.line.atBreak s.line.seq } := rfl

/-- A condition that stands asserts ATTN, so postings after it commute with it (R162, R164). -/
theorem AttentionUnit.post_alert {x : BitVec 8} (some : (x != 0#8) = true) (u : AttentionUnit) (e : EntryNo) (c : CauseSet) :
    ({ u with conditions := x, attn := true } : AttentionUnit).post e c =
      { u.post e c with conditions := x, attn := true } := by
  simp only [AttentionUnit.post, AttentionUnit.drive, AttentionUnit.setRecord, AttentionUnit.record, some, Bool.or_true]
  rfl

theorem State.brokenPosting_conditions {x : BitVec 8} (some : (x != 0#8) = true) (s : State) (u : AttentionUnit) :
    s.brokenPosting { u with conditions := x, attn := true } =
      { s.brokenPosting u with conditions := x, attn := true } := by
  unfold State.brokenPosting
  split
  · rfl
  · exact AttentionUnit.post_alert some u _ _

/-- A frame that fails while a condition is set fails as it would have without it. -/
theorem FrameFails.of_condition {a : Action} {e : EntryNo} {s t : State} {c : LineCondition} {after : AttentionUnit}
    (h : FrameFails a e (s.setCondition c) t after) (claim : a ≠ .claim) :
    FrameFails a e s t (if a = .fetch then s.brokenPosting s.attention else s.attention) ∧
      after = { (if a = .fetch then s.brokenPosting s.attention else s.attention) with
        conditions := s.attention.conditions ||| c.set, attn := true } := by
  refine ⟨⟨h.mark, h.index, h.bytes, h.answer, h.capture, h.other, h.claims, fun ha => absurd ha claim,
    fun _ _ _ _ ha => absurd ha claim, fun ha => if_pos ha, fun ha _ => if_neg ha⟩, ?_⟩
  by_cases fetch : a = .fetch
  · rw [if_pos fetch, ← State.brokenPosting_conditions (c.joined_nonempty _), ← State.setCondition_attention_eq]
    exact h.broken fetch
  · rw [if_neg fetch, ← State.setCondition_attention_eq]
    exact h.quiet fetch claim

/-- Settles O37, by the phase in which the run reaches 12 Tb. -/
theorem breakBeginsANewFrame : Obligations.BreakBeginsANewFrame := by
  refine ⟨fun s mode => ⟨fun begins => ?_, fun none => ?_⟩, fun s mode phase => ⟨s.closeSequence, s.closeSequence_closed, ?_⟩,
    fun s a e mode entry action working claims event => ?_⟩
  · rw [exec_breakRecognised mode, ← State.newFrame_eq]
    refine congrArg Host.Outcome.next ?_
    rcases begins with phase | ⟨phase, fresh⟩ | ⟨phase | phase, fresh⟩ <;> simp [State.reachBreak, *]
  · rw [exec_breakRecognised mode]
    refine congrArg Host.Outcome.next ?_
    rcases none with phase | ⟨phase, fresh⟩ | ⟨phase | phase, fresh⟩ <;> simp [State.reachBreak, *]
  · rw [exec_breakRecognised mode, State.reachBreak, phase]
    dsimp only
    rw [State.newFrame_eq, State.setCondition_breakSequence, State.closeSequence_line]
    rfl
  · rcases event with ⟨phase, asking, _, _⟩ | ⟨phase, kinds⟩
    · have fails := State.frameEnd_fails (how := .collided) (State.serveRequest_of_not_asking asking) entry action working rfl
        fun _ => claims
      have collided : s.frameCollided = { s.frameEnd .collided with
          attention := (s.frameEnd .collided).attention.post e (1#13 <<< 5) } := fails.postFrame entry .collided
      have runs : exec .breakRecognised s = .next s.frameCollided.newFrame := by
        rw [exec_breakRecognised mode, State.reachBreak, phase]
      rw [collided, State.newFrame_eq] at runs
      refine ⟨_, _, runs, fails.host, fails.queue, fails.effect.congr rfl rfl rfl, ?_, (if_pos phase).symm⟩
      simp only [fails.line]
      rfl
    · have claim : a ≠ .claim := by rcases kinds with ⟨rfl, _⟩ | ⟨rfl, _⟩ <;> decide
      have fails := State.frameEnd_fails (s := s.setCondition .cut) (how := .cut)
        (State.serveRequest_of_not_space (by simp [phase])) entry action working rfl fun h => absurd h claim
      have cut : ((s.setCondition .cut).frameEnd .cut).postFrame .damaged = { (s.setCondition .cut).frameEnd .cut with
          attention := ((s.setCondition .cut).frameEnd .cut).attention.post e (1#13 <<< 3) } := fails.postFrame entry .damaged
      have runs : exec .breakRecognised s = .next (((s.setCondition .cut).frameEnd .cut).postFrame .damaged).newFrame := by
        rw [exec_breakRecognised mode, State.reachBreak, phase]
      obtain ⟨effect, after⟩ := fails.effect.of_condition claim
      rw [cut, State.newFrame_eq] at runs
      refine ⟨_, _, runs, fails.host, fails.queue, effect.congr rfl rfl rfl, ?_, ?_⟩
      · simp only [fails.line]
        rfl
      · rw [if_neg (by simp [phase])]
        refine (congrArg (AttentionUnit.post · e (1#13 <<< 3)) after).trans ?_
        exact AttentionUnit.post_alert (LineCondition.cut.joined_nonempty _) _ _ _

/-! ## SET_MODE OFFLINE with a frame in flight (R148) -/

/-- LISTEN is left for OFFLINE once no sequence is open, and the SET_MODE completes. -/
theorem State.completeOffline_eq {s : State} (seq : s.line.seq = none) :
    (s.leaveListen .offline).completeMode .offline =
      { s with line := s.line.quit .offline, host := s.host.completed .done [0x00#8] } := by
  rw [State.leaveListen_none seq]
  exact (State.replied_eq_complete _ _ _).symm

theorem exec_offlineCharacterEnd {s : State} (work : s.host.work = some .offline) :
    exec .offlineCharacterEnd s = .next s.finishOffline := congrArg Host.Outcome.next (if_pos work)

theorem State.setMode_offline_answering {s : State} (mode : s.line.mode = .listen) (phase : s.line.phase = .answering) :
    s.setMode 0x00#8 = s.setWork .offline := by
  refine (State.setMode_named (m := .offline) (by decide)).trans ?_
  simp [State.setModeInListen, mode, phase]

theorem State.setMode_offline_abandons {s : State} (mode : s.line.mode = .listen)
    (phase : s.line.phase = .space ∨ s.line.phase = .receiving) :
    s.setMode 0x00#8 = s.abandonFrame.completeMode .offline := by
  refine (State.setMode_named (m := .offline) (by decide)).trans ?_
  rcases phase with phase | phase <;> simp [State.setModeInListen, mode, phase, Phase.inFlight]

/-- How SET_MODE OFFLINE ends a frame in flight, at once or at the end of the character (R148). -/
theorem exec_offline_ends {c : Instr} {collided : Bool} {s : State}
    (event : (c = .setMode 0x00#8 ∧ s.Takes c ∧ collided = false ∧ (s.line.phase = .space ∨ s.line.phase = .receiving)) ∨
      (c = .offlineCharacterEnd ∧ s.host.work = some .offline ∧ s.line.phase = .answering ∧ s.line.collided = collided))
    (mode : s.line.mode = .listen) :
    ∃ x : HostPort, x.completed .done [0x00#8] = s.host.completed .done [0x00#8] ∧
      exec c s = .next (if collided = true
        then (({ s with host := x } : State).frameCollided.leaveListen .offline).completeMode .offline
        else ({ s with host := x } : State).abandonFrame.completeMode .offline) := by
  rcases event with ⟨rfl, takes, rfl, phase⟩ | ⟨rfl, work, phase, rfl⟩
  · obtain ⟨x, runs, completed, _⟩ := State.runCommand_of_takes takes fun s => s.setMode 0x00#8
    exact ⟨x, completed _ _, congrArg Host.Outcome.next
      (runs.trans (State.setMode_offline_abandons (s := { s with host := x }) mode phase))⟩
  · refine ⟨s.host, rfl, (exec_offlineCharacterEnd work).trans (congrArg Host.Outcome.next ?_)⟩
    exact if_pos (by rw [phase]; rfl)

/-- The frame in flight fails as collided or as abandoned, and the part is OFFLINE (R148). -/
theorem State.frameEnd_offline {s : State} {a : Action} {e : EntryNo} (served : s.serveRequest = s)
    (entry : s.line.frame.entry = some e) (action : s.line.frame.action = some a)
    (working : (s.entry e).state.working = true) (claims : ClaimsOk s) (alone : a ≠ .fetch → s.line.seq = none)
    (collided : Bool) :
    ∃ u : State, FailsOnly a e s u ∧ u.line.seq = none ∧
      (if collided = true then (s.frameCollided.leaveListen .offline).completeMode .offline
        else s.abandonFrame.completeMode .offline) =
      { u with
        attention := if collided = true then u.attention.post e (1#13 <<< 5)
          else { u.attention with conditions := s.attention.conditions ||| 0x80#8, attn := true }
        line := u.line.quit .offline, host := s.host.completed .done [0x00#8] } := by
  have fails (how : FrameEnd) (failed : how.fails = true) : FailsOnly a e s (s.frameEnd how) :=
    State.frameEnd_fails served entry action working failed fun _ => claims
  have closed (how : FrameEnd) (failed : how.fails = true) : (s.frameEnd how).line.seq = none := by
    rw [(fails how failed).line]
    by_cases fetch : a = .fetch
    · exact if_pos fetch
    · exact (if_neg fetch).trans (alone fetch)
  cases collided with
  | true =>
    have eq : s.frameCollided = { s.frameEnd .collided with
        attention := (s.frameEnd .collided).attention.post e (1#13 <<< 5) } := (fails .collided rfl).postFrame entry .collided
    have seq : s.frameCollided.line.seq = none := by rw [eq]; exact closed .collided rfl
    refine ⟨_, fails .collided rfl, closed .collided rfl, (if_pos rfl).trans ?_⟩
    rw [State.completeOffline_eq seq, eq, (fails .collided rfl).host, if_pos rfl]
  | false =>
    have seq : ((s.frameEnd .abandoned).setCondition .abandoned).line.seq = none := closed .abandoned rfl
    refine ⟨_, fails .abandoned rfl, closed .abandoned rfl, (if_neg Bool.false_ne_true).trans ?_⟩
    refine (State.completeOffline_eq seq).trans ?_
    rw [State.setCondition_attention_eq, (fails .abandoned rfl).conditions, if_neg Bool.false_ne_true,
      State.setCondition_host, (fails .abandoned rfl).host]
    rfl

/-- Settles O26: the frame fails as abandoned, or as collided after a mismatch, and LISTEN is left. -/
theorem setModeOfflineAbandonsTheFrame : Obligations.SetModeOfflineAbandonsTheFrame := by
  refine ⟨fun s takes mode phase => ?_, fun c collided a e s event mode entry action working claims alone => ?_⟩
  · obtain ⟨x, runs, _, outstanding⟩ := State.runCommand_of_takes takes fun s => s.setMode 0x00#8
    refine congrArg Host.Outcome.next (runs.trans
      ((State.setMode_offline_answering (s := { s with host := x }) mode phase).trans ?_))
    exact congrArg (fun h : HostPort => ({ s with host := h } : State)) (outstanding .offline)
  · obtain ⟨x, completed, runs⟩ := exec_offline_ends (event.imp_left fun ⟨hc, takes, no, phase⟩ =>
      ⟨hc, takes, no, phase.imp_left And.left⟩) mode
    have served : ({ s with host := x } : State).serveRequest = { s with host := x } := by
      rcases event with ⟨_, _, _, ⟨_, asking⟩ | phase⟩ | ⟨_, _, phase, _⟩
      · exact State.serveRequest_of_not_asking (s := { s with host := x }) asking
      · exact State.serveRequest_of_not_space (s := { s with host := x }) (by simp [phase])
      · exact State.serveRequest_answering (s := { s with host := x }) phase
    obtain ⟨u, fails, seq, eq⟩ := State.frameEnd_offline (s := { s with host := x }) served entry action working
      (claims.congr rfl (.of_entries rfl) rfl rfl) alone collided
    rw [eq] at runs
    have kept := fails.entry e
    refine ⟨_, _, runs, completed, rfl, rfl, rfl, rfl, seq, rfl, rfl, fails.queue, fails.effect.of_host.congr rfl rfl rfl, rfl,
      ?_, ?_, ?_, ?_⟩ <;> exact kept ▸ rfl

end Sys2Proof.Machine
end

section
/-! PROOFS. Receiving: the characters of a response, the faults of a reception, and what a good one makes of its record
(O48 to O50). -/

namespace Sys2Proof.Machine

/-! ## The characters of a response (R100, R134 to R136) -/

section
variable {s : State} (mode : s.line.mode = .listen) (phase : s.line.phase = .receiving)
include mode phase

theorem exec_responseCharacter_lands {n : Nat} (size : s.line.frame.n = some n) (more : s.line.landing.length + 1 < n)
    (b : Byte) : exec (.responseCharacter b false) s = .next (s.landByte b) := by
  refine congrArg Host.Outcome.next ((if_pos ⟨mode, phase⟩).trans ((if_neg Bool.false_ne_true).trans (if_pos ?_)))
  rw [size]
  exact more

theorem exec_responseCharacter_framing (b : Byte) :
    exec (.responseCharacter b true) s = .next (s.receptionFault .damaged) :=
  congrArg Host.Outcome.next ((if_pos ⟨mode, phase⟩).trans (if_pos rfl))

theorem exec_responseCharacter_last (size : s.line.frame.n = some (s.line.landing.length + 1)) (b : Byte) :
    exec (.responseCharacter b false) s = .next (s.lastByte b) := by
  refine congrArg Host.Outcome.next ((if_pos ⟨mode, phase⟩).trans ((if_neg Bool.false_ne_true).trans (if_neg ?_)))
  rw [size]
  exact Nat.lt_irrefl _

theorem exec_responseWindowDeadline :
    exec .responseWindowDeadline s =
      .next (s.receptionFault (if s.line.startSeen || s.line.edge then .overtime else .noAnswer)) :=
  congrArg Host.Outcome.next (if_pos ⟨mode, phase⟩)

end

/-! ## A reception that fails -/

/-- A fault of a reception: the frame fails, the cause is posted, the phase is SKIPPING (R134 to R137). -/
theorem State.receptionFault_eq {s : State} {a : Action} {e : EntryNo} (entry : s.line.frame.entry = some e)
    (pending : s.line.idlePending = false) (fails : FailsOnly a e s (s.frameEnd .faulty)) (c : Cause) :
    s.receptionFault c = { s.frameEnd .faulty with
      attention := (s.frameEnd .faulty).attention.post e c.set
      line := { s.line with seq := if a = Action.fetch then none else s.line.seq }.quieted .skipping } := by
  have posted := fails.postFrame entry c
  have fault : s.receptionFault c = ((s.frameEnd .faulty).postFrame c).enterQuiet .skipping := rfl
  rw [fault, posted, State.enterQuiet_of_not_pending (by exact (congrArg LineUnit.idlePending fails.line).trans pending),
    ← fails.line]
  rfl

/-- The Line Unit with other contents of what a reception counts: the landing buffer, the check register and the marks of
the character at hand. -/
def LineUnit.heard (l : LineUnit) (landing : List Byte) (check : Byte) (assembling startSeen edge : Bool) : LineUnit :=
  { l with landing := landing, check := check, assembling := assembling, startSeen := startSeen, edge := edge }

/-- A frame's failure is told without what its reception counts. -/
theorem FrameFails.of_heard {a : Action} {e : EntryNo} {s t : State} {landing : List Byte} {check : Byte}
    {assembling startSeen edge : Bool} {after : AttentionUnit}
    (h : FrameFails a e { s with line := s.line.heard landing check assembling startSeen edge } t after) :
    FrameFails a e s t after :=
  ⟨h.mark, h.index, h.bytes, h.answer, h.capture, h.other, h.claims, h.unclaimed, h.reserved, h.broken, h.quiet⟩

/-- The sequence that is open while a frame is received is the ASSEMBLE sequence of its own MIRROR (R104, R111). -/
theorem CopiesOk.receiving_sequence {s : State} (ok : CopiesOk s) (phase : s.line.phase = .receiving) {e : EntryNo}
    (entry : s.line.frame.entry = some e) {q : SequenceContext} (seq : s.line.seq = some q) :
    s.line.frame.action = some .fetch ∧ q.entry = e ∧ ((s.entry e).role = .mirror → q.kind = .assemble) := by
  obtain ⟨_, _, _, _, kind, _, flight⟩ := ok.sequence q seq
  obtain ⟨action, own, _⟩ := flight (by rw [phase]; rfl)
  have own : q.entry = e := (Option.some.inj (entry.symm.trans own)).symm
  refine ⟨action, own, fun mirror => ?_⟩
  cases kinds : q.kind with
  | assemble => rfl
  | serve =>
    rw [kinds] at kind
    obtain ⟨p, pin, at_⟩ := Option.map_eq_some_iff.1 kind.2
    obtain ⟨source, _⟩ := ok.pin p pin
    rw [at_, own] at source
    exact absurd (source.symm.trans mirror) (by decide)

/-- Settles O48: a fault at the framing, the check or the deadline is one failure with its own cause. -/
theorem receptionFaultsPostTheirCause : Obligations.ReceptionFaultsPostTheirCause := by
  refine ⟨fun b n s mode phase size more => exec_responseCharacter_lands mode phase size more b,
    fun c bit landing a e s mode phase pending entry action working copies kinds event => ?_⟩
  have claim : a ≠ .claim := by rcases kinds with ⟨rfl, _⟩ | ⟨rfl, _⟩ <;> decide
  obtain ⟨check, assembling, startSeen, edge, cause, runs, bits⟩ : ∃ (check : Byte) (assembling startSeen edge : Bool)
      (cause : Cause), exec c s =
        .next (({ s with line := s.line.heard landing check assembling startSeen edge } : State).receptionFault cause) ∧
      cause.set = 1#13 <<< bit := by
    rcases event with ⟨b, rfl, rfl, rfl⟩ | ⟨b, rfl, size, wrong, rfl, rfl⟩ | ⟨rfl, rfl, rfl⟩
    · exact ⟨_, _, _, _, .damaged, exec_responseCharacter_framing mode phase b, rfl⟩
    · exact ⟨_, _, _, _, .damaged, (exec_responseCharacter_last mode phase size b).trans
        (congrArg Host.Outcome.next (if_neg wrong)), rfl⟩
    · refine ⟨_, _, _, _, _, exec_responseWindowDeadline mode phase, ?_⟩
      cases s.line.startSeen <;> cases s.line.edge <;> rfl
  have seq : (if a = .fetch then none else s.line.seq) = none := by
    split
    · rfl
    · next other =>
      cases seq : s.line.seq with
      | none => rfl
      | some q =>
        obtain ⟨fetch, _⟩ := copies.receiving_sequence phase entry seq
        exact absurd (Option.some.inj (action.symm.trans fetch)) other
  have keepsPin (t : State) (after : AttentionUnit) (h : FrameFails a e s t after) : t.table.pin = s.table.pin := by
    rcases kinds with ⟨rfl, _⟩ | ⟨rfl, mirror⟩
    · obtain ⟨table, _⟩ := h.other (by decide)
      rw [table]
    · obtain ⟨none, given⟩ := h.capture rfl mirror
      cases seq : s.line.seq with
      | none =>
        obtain ⟨_, pin, _⟩ := none seq
        exact pin
      | some q =>
        obtain ⟨_, _, kind⟩ := copies.receiving_sequence phase entry seq
        obtain ⟨_, assemble⟩ := given q seq
        obtain ⟨pin, _⟩ := assemble (kind mirror)
        exact pin
  have fails := State.frameEnd_fails (s := { s with line := s.line.heard landing check assembling startSeen edge })
    (how := .faulty) (State.serveRequest_of_not_space (by simp [LineUnit.heard, phase])) entry action working rfl
    fun h => absurd h claim
  have effect := fails.effect.of_heard
  have pin := keepsPin _ _ effect
  rw [State.receptionFault_eq (s := { s with line := s.line.heard landing check assembling startSeen edge }) entry pending
    fails cause] at runs
  refine ⟨_, _, runs, fails.host, effect.claims claim, fails.queue, effect.congr rfl rfl rfl,
    congrArg (AttentionUnit.post _ e) bits, pin, ?_⟩
  exact congrArg (fun q => LineUnit.quieted { s.line.heard landing check assembling startSeen edge with seq := q } .skipping) seq

/-! ## Data from the line that become the current copy (R48, R49, R51) -/

/-- New data for a record, in its current copy or in one new cell, or lost for want of a cell. A STORE and a capture of one
segment differ in the entry alone. -/
def State.renew (s : State) (e : EntryNo) (x : List CellNo → Entry) (data : List Byte) : State :=
  match (s.entry e).current with
  | some cells => ({ s.setEntry e (x cells) with pool := CellPool.writeRecord cells s.pool 0 data }).post e .updated
  | none =>
    match s.pool.allocate 1 with
    | none => s.post e .dropped
    | some (cells, p) =>
      ({ s.setEntry e (x cells) with pool := CellPool.writeRecord cells (p.zero cells) 0 data }).post e .updated

theorem State.applyCapture_renew (s : State) (e : EntryNo) (data : List Byte) (b : Byte) :
    s.applyCapture e data b = s.renew e ((s.entry e).captured b) data := by
  unfold State.applyCapture State.renew
  rfl

theorem State.applyStore_renew (s : State) (e : EntryNo) (data : List Byte) :
    s.applyStore e data = s.renew e
      ((s.entry e).renewed ((s.entry e).version + 1) (s.entry e).staleSeen (s.entry e).claimedSeen) data := by
  unfold State.applyStore State.renew
  dsimp only
  cases current : (s.entry e).current with
  | none => rfl
  | some cells =>
    have kept : ({ (s.entry e).refresh with version := (s.entry e).version + 1 } : Entry) =
        (s.entry e).renewed ((s.entry e).version + 1) (s.entry e).staleSeen (s.entry e).claimedSeen cells := by
      rw [Entry.renewed, ← current]
      rfl
    simp only [← kept]

/-- What new data make of a record, by its current copy and the free cells (R48, R49, R51). -/
def Renews (s t : State) (e : EntryNo) (x : List CellNo → Entry) (data : List Byte) : Prop :=
  (∀ cell : CellNo, (s.entry e).current = some [cell] →
    t.entry e = x [cell] ∧ t.pool.free = s.pool.free ∧ BytesHold [cell] 0 data t ∧
      BytesKeptBut [cell] 0 data.length s t ∧ t.attention = s.attention.post e (1#13 <<< 0)) ∧
  ((s.entry e).current = none → s.pool.free = [] →
    t.entry e = s.entry e ∧ t.pool = s.pool ∧ t.attention = s.attention.post e (1#13 <<< 6)) ∧
  ∀ (cell : CellNo) (rest : List CellNo), (s.entry e).current = none → s.pool.free = cell :: rest →
    t.entry e = x [cell] ∧ t.pool.free = rest ∧ BytesHold [cell] 0 data t ∧
      (∀ o : Nat, data.length ≤ o → o < 16 → t.pool.peek [cell] o = 0x00#8) ∧
      BytesKeptBut [cell] 0 16 s t ∧ t.attention = s.attention.post e (1#13 <<< 0)

/-- Cells filled with 00h and written from their start: what they hold, and that nothing else is touched (R30). -/
theorem CellPool.writeRecord_zeroed {s t : State} (memory : MemoryOk s) {p : CellPool} (bytes : p.bytes = s.pool.bytes)
    {cells : List CellNo} (nodup : cells.Nodup) {data : List Byte} (fits : data.length ≤ 16 * cells.length)
    (pool : t.pool.bytes = (CellPool.writeRecord cells (p.zero cells) 0 data).bytes) :
    BytesHold cells 0 data t ∧
      (∀ o : Nat, data.length ≤ o → o < 16 * cells.length → t.pool.peek cells o = 0x00#8) ∧
      BytesKeptBut cells 0 (16 * cells.length) s t := by
  have ok : Memory.wf p.bytes = true := by rw [bytes]; exact memory
  refine ⟨.writeRecord (CellPool.wf_zero ok cells) nodup (by omega) pool, fun o past inside => ?_, fun a outside => ?_⟩
  · have peek : t.pool.peek cells o = (CellPool.writeRecord cells (p.zero cells) 0 data).peek cells o := by
      simp only [CellPool.peek, pool]
    rw [peek, CellPool.peek_writeRecord (CellPool.wf_zero ok cells) nodup inside, if_neg (by omega),
      CellPool.peek_zero ok nodup inside]
  · rw [pool, CellPool.read_writeRecord_other (CellPool.wf_zero ok cells) fun x _ hx => outside x (Nat.zero_le x) (by omega),
      CellPool.zero, CellPool.read_writeRecord_other ok, bytes]
    intro x _ hx
    simp only [List.length_replicate, Config.cellBytes] at hx
    exact outside x (Nat.zero_le x) (by omega)

theorem State.renew_renews {s : State} (memory : MemoryOk s) (e : EntryNo) (x : List CellNo → Entry) {data : List Byte}
    (size : data.length ≤ 16) : Renews s (s.renew e x data) e x data := by
  refine ⟨fun cell current => ?_, fun current none => ?_, fun cell rest current free => ?_⟩
  · have eq : s.renew e x data =
        ({ s.setEntry e (x [cell]) with pool := CellPool.writeRecord [cell] s.pool 0 data }).post e .updated := by
      simp only [State.renew, current]
    rw [eq]
    exact ⟨State.entry_setEntry_self s e _, CellPool.writeRecord_free _ _ _ _,
      .writeRecord memory (List.nodup_singleton cell) (by simpa using size) rfl, .writeRecord memory rfl, rfl⟩
  · have eq : s.renew e x data = s.post e .dropped := by
      simp only [State.renew, current, CellPool.allocate_eq_none.2 (by rw [none]; decide : s.pool.free.length < 1)]
    rw [eq]
    exact ⟨rfl, rfl, rfl⟩
  · have allocated : s.pool.allocate 1 = some ([cell], { s.pool with free := rest }) :=
      CellPool.allocate_eq_some.2 (by simp [free])
    have eq : s.renew e x data = ({ s.setEntry e (x [cell]) with
        pool := CellPool.writeRecord [cell] (CellPool.zero { s.pool with free := rest } [cell]) 0 data }).post e
          .updated := by
      simp only [State.renew, current, allocated]
    obtain ⟨holds, zeroed, kept⟩ := CellPool.writeRecord_zeroed (t := s.renew e x data) memory (p := { s.pool with free := rest })
      rfl (List.nodup_singleton cell) (by simpa using size) (by rw [eq]; rfl)
    rw [eq] at holds zeroed kept ⊢
    exact ⟨State.entry_setEntry_self s e _, (CellPool.writeRecord_free _ _ _ _).trans (CellPool.zero_free _ _), holds, zeroed,
      kept, rfl⟩

/-! ## A response received in full (R103, R116, R124) -/

/-- What a good response touches besides the sequence, the pool and the attention record: its own entry. -/
structure RecordOnly (e : EntryNo) (s t : State) : Prop where
  claims : t.claims = s.claims
  index : t.table.index = s.table.index
  inFlight : t.table.inFlight = s.table.inFlight
  pin : t.table.pin = s.table.pin
  other : ∀ d : EntryNo, d ≠ e → t.entry d = s.entry d

theorem RecordOnly.of_table {e : EntryNo} {s t : State} (table : t.table = s.table) (claims : t.claims = s.claims) :
    RecordOnly e s t :=
  ⟨claims, by rw [table], by rw [table], by rw [table], fun d _ => by simp only [State.entry, table]⟩

theorem RecordOnly.of_setEntry {e : EntryNo} {s t : State} (x : Entry) (table : t.table = s.table.setEntry e x)
    (claims : t.claims = s.claims) : RecordOnly e s t :=
  ⟨claims, by rw [table]; rfl, by rw [table]; rfl, by rw [table]; rfl,
    fun d hd => by simp only [State.entry, table, TableController.entry_setEntry_ne _ _ hd]⟩

theorem State.renew_only (s : State) (e : EntryNo) (x : List CellNo → Entry) (data : List Byte) :
    RecordOnly e s (s.renew e x data) ∧ (s.renew e x data).line = s.line := by
  unfold State.renew
  split
  · exact ⟨.of_setEntry _ rfl rfl, rfl⟩
  · split
    · exact ⟨.of_table rfl rfl, rfl⟩
    · exact ⟨.of_setEntry _ rfl rfl, rfl⟩

section
variable {s : State} {e : EntryNo} (served : s.serveRequest = s) (entry : s.line.frame.entry = some e)
  (working : (s.entry e).state.working = true)
include served entry working

theorem State.frameEnd_storeReceived (action : s.line.frame.action = some .store) :
    s.frameEnd .received = (s.setInFlight none).acceptStore e := by
  have claims : s.reportToClaims .received e = s := by simp only [State.reportToClaims, action]
  rw [State.frameEnd_of_entry served entry, claims]
  simp [State.reportToTable, EntryState.ne_retiring_of_working working, action]

theorem State.frameEnd_captureReceived (action : s.line.frame.action = some .fetch) (role : (s.entry e).role = .mirror) :
    s.frameEnd .received = (s.setInFlight none).captureGood e := by
  have claims : s.reportToClaims .received e = s := by simp only [State.reportToClaims, action]
  rw [State.frameEnd_of_entry served entry, claims]
  simp [State.reportToTable, EntryState.ne_retiring_of_working working, action, role]

end

/-- The machine when its last character has come with a good check: landed, with the mark gone (R100, R103). -/
def State.received (s : State) : State := (s.landByte s.line.check).setInFlight none

theorem LineSettles.of_received {s t : State} {q : Option SequenceContext}
    (line : t.line = { s.received.line with seq := q }.quieted .skipping) :
    LineSettles .skipping q (s.line.landing ++ [s.line.check]) s t := by
  rw [LineSettles, line]
  rfl

/-- The last character of a response with a good check (R100, R103). -/
theorem exec_responseCharacter_good {s u : State} (mode : s.line.mode = .listen) (phase : s.line.phase = .receiving)
    (pending : s.line.idlePending = false) (size : s.line.frame.n = some (s.line.landing.length + 1))
    (ends : (s.landByte s.line.check).frameEnd .received = u) :
    exec (.responseCharacter s.line.check false) s = .next { u with line := u.line.quieted .skipping } := by
  subst ends
  refine (exec_responseCharacter_last mode phase size _).trans (congrArg Host.Outcome.next ((if_pos rfl).trans ?_))
  refine State.enterQuiet_of_not_pending ?_ _
  rw [((s.landByte s.line.check).frameEnd_ends .received).line]
  exact pending

/-! ## STORE data (R48, R49, R80, R116) -/

theorem State.acceptStore_denied {s : State} {e : EntryNo} {tag : Tag} (tagged : s.line.frame.tag = some tag)
    (denied : (s.entry e).permits.storeOk = false ∨ s.claims.blocksLine e tag = true) :
    s.acceptStore e = s.post e .denied :=
  if_pos (by rw [tagged]; exact denied)

theorem State.acceptStore_applied {s : State} {e : EntryNo} {tag : Tag} (tagged : s.line.frame.tag = some tag)
    (permitted : (s.entry e).permits.storeOk = true) (unblocked : s.claims.blocksLine e tag = false) :
    s.acceptStore e = s.applyStore e (s.line.landing.take (s.entry e).length) :=
  if_neg (by rw [tagged]; simp [permitted, unblocked])

theorem State.acceptStore_only (s : State) (e : EntryNo) :
    RecordOnly e s (s.acceptStore e) ∧ (s.acceptStore e).line = s.line := by
  unfold State.acceptStore
  dsimp only
  split
  · exact ⟨.of_table rfl rfl, rfl⟩
  · rw [State.applyStore_renew]
    exact s.renew_only e _ _

/-- In RECEIVING no slot is RESERVED, so a STORE is blocked by any slot but a LINE claim under its tag (R67, R80). -/
theorem ClaimsOk.blocksLine_receiving {s : State} (ok : ClaimsOk s) (phase : s.line.phase = .receiving) (e : EntryNo)
    (tag : Tag) :
    s.claims.blocksLine e tag = true ↔
      ∃ k : SlotNo, (s.claims.slot k).names e = true ∧ ∀ lease : Nat, s.claims.slot k ≠ .heldLine e tag lease := by
  rw [ok.blocksLine_eq]
  constructor
  · rintro ⟨k, names, held, _⟩
    exact ⟨k, names, held⟩
  · rintro ⟨k, names, held⟩
    refine ⟨k, names, held, fun lease renewal slot => ?_⟩
    have reserved := ok.slots k
    rw [slot] at reserved
    obtain ⟨_, _, _, _, flight, _⟩ := reserved
    rw [phase] at flight
    rcases flight with h | h <;> cases h

/-- Settles O49: the STORE is denied by its permit or its claim, or renews the record's data. -/
theorem storesAreAcceptedDeniedOrDropped : Obligations.StoresAreAcceptedDeniedOrDropped := by
  intro e tag s mode phase pending entry action tagged working role length small size claims memory
  have ends : (s.landByte s.line.check).frameEnd .received = s.received.acceptStore e :=
    State.frameEnd_storeReceived (State.serveRequest_of_not_space (s := s.landByte s.line.check) (by simp [State.landByte, phase]))
      entry working action
  have landed : s.received.line.landing.take (s.entry e).length = s.line.landing := by
    rw [← length]
    exact List.take_left' rfl
  have kept := s.received.acceptStore_reports e
  obtain ⟨only, line⟩ := s.received.acceptStore_only e
  refine ⟨_, exec_responseCharacter_good mode phase pending (by rw [size, length]) ends, ?_, kept.host, only.claims,
    kept.queue, only.index, only.inFlight, only.pin, only.other, fun denied => ?_, fun permitted claimed => ?_⟩
  · exact .of_received (congrArg (LineUnit.quieted · .skipping) line)
  · have eq : s.received.acceptStore e = s.received.post e .denied :=
      State.acceptStore_denied (s := s.received) tagged (denied.imp_right (claims.blocksLine_receiving phase e tag).2)
    rw [eq]
    exact ⟨rfl, rfl, rfl⟩
  · have unblocked : s.claims.blocksLine e tag = false := by
      rw [Bool.eq_false_iff, ne_eq, claims.blocksLine_receiving phase]
      rintro ⟨k, names, other⟩
      obtain ⟨lease, held⟩ := claimed k names
      exact other lease held
    have eq : s.received.acceptStore e = s.received.renew e
        ((s.entry e).renewed ((s.entry e).version + 1) (s.entry e).staleSeen (s.entry e).claimedSeen) s.line.landing := by
      refine (State.acceptStore_applied (s := s.received) tagged permitted unblocked).trans ?_
      rw [State.applyStore_renew]
      exact congrArg (s.received.renew e _) landed
    obtain ⟨overwrites, drops, makes⟩ := State.renew_renews (s := s.received) memory e
      ((s.entry e).renewed ((s.entry e).version + 1) (s.entry e).staleSeen (s.entry e).claimedSeen) (data := s.line.landing)
      (by omega)
    rw [eq]
    refine ⟨fun cell current => ?_, drops, fun cell rest current free => by
      rw [← length]
      exact makes cell rest current free⟩
    obtain ⟨renewed, free, holds, kept, posted⟩ := overwrites cell current
    refine ⟨renewed.trans ?_, free, holds, by rw [← length]; exact kept, posted⟩
    rw [Entry.renewed, ← current]

end Sys2Proof.Machine
end

section
/-! PROOFS. What a good capture of a MIRROR makes of its record (O50). -/

namespace Sys2Proof.Machine

/-! ## The cases of a good capture (R124 to R126) -/

section
variable {s : State} {e : EntryNo} {data : List Byte} {tagged check : Byte}
  (landing : s.line.landing = data ++ [tagged] ++ [check])
include landing

/-- What has landed is taken apart into the data and the tag byte (R123). -/
theorem State.captureGood_landed :
    s.captureGood e = if (s.entry e).segments ≤ 1 then s.applyCapture e data tagged
      else match s.line.seq with
        | none => s.openAssembly e data tagged
        | some q =>
          if q.version ≠ some (tagVersion tagged) then s.breakSequence
          else if q.next + 1 < (s.entry e).segments then s.continueAssembly e q data
          else s.completeAssembly e q data tagged := by
  have size : s.line.landing.length - 2 = data.length := by simp [landing]
  have front : s.line.landing.take data.length = data := by simp [landing]
  have tag : s.line.landing.getD data.length 0x00#8 = tagged := by simp [landing]
  simp only [State.captureGood, size, front, tag] <;> rfl

theorem State.captureGood_single (single : (s.entry e).segments = 1) :
    s.captureGood e = s.renew e ((s.entry e).captured tagged) data := by
  rw [State.captureGood_landed landing, if_pos (by omega), State.applyCapture_renew]

theorem State.captureGood_first (several : 2 ≤ (s.entry e).segments) (seq : s.line.seq = none) :
    s.captureGood e = s.openAssembly e data tagged := by
  rw [State.captureGood_landed landing, if_neg (by omega)]
  simp only [seq]

variable {q : SequenceContext} (several : 2 ≤ (s.entry e).segments) (seq : s.line.seq = some q)
include several seq

theorem State.captureGood_breaks (version : q.version ≠ some (tagVersion tagged)) :
    s.captureGood e = s.breakSequence := by
  rw [State.captureGood_landed landing, if_neg (by omega)]
  simp only [seq, if_pos version]

theorem State.captureGood_goesOn (version : q.version = some (tagVersion tagged)) (next : q.next + 1 < (s.entry e).segments) :
    s.captureGood e = s.continueAssembly e q data := by
  rw [State.captureGood_landed landing, if_neg (by omega)]
  simp only [seq, version, ne_eq, not_true, if_false, if_pos next]

theorem State.captureGood_completes (version : q.version = some (tagVersion tagged))
    (last : q.next + 1 = (s.entry e).segments) : s.captureGood e = s.completeAssembly e q data tagged := by
  rw [State.captureGood_landed landing, if_neg (by omega)]
  simp only [seq, version, ne_eq, not_true, if_false, if_neg (show ¬ q.next + 1 < (s.entry e).segments by omega)]

end

/-! ## What each case leaves -/

/-- The early close of the ASSEMBLE sequence of an entry (R53, R114). -/
theorem State.breakSequence_assemble {s : State} {q : SequenceContext} (seq : s.line.seq = some q)
    (kind : q.kind = .assemble) :
    s.breakSequence = { s with
      table := s.table.setEntry q.entry { s.entry q.entry with staged := none }
      pool := s.pool.release ((s.entry q.entry).staged.getD [])
      line := { s.line with seq := none }
      attention := s.attention.post q.entry (1#13 <<< 7) } := by
  rw [State.breakSequence_closed, State.brokenPosting, seq, State.closeSequence_assemble seq kind, State.freeStaged_eq]
  rfl

/-- A good capture touches its own entry alone, when the sequence that is open is its own. -/
theorem State.captureGood_only {s : State} {e : EntryNo}
    (own : ∀ q : SequenceContext, s.line.seq = some q → q.entry = e ∧ q.kind = .assemble) :
    RecordOnly e s (s.captureGood e) := by
  unfold State.captureGood
  dsimp only
  split
  · rw [State.applyCapture_renew]
    exact (s.renew_only e _ _).1
  · split
    · unfold State.openAssembly
      dsimp only
      split
      · exact .of_table rfl rfl
      · exact .of_setEntry _ rfl rfl
    · next q seq =>
      obtain ⟨entry, kind⟩ := own q seq
      split
      · rw [State.breakSequence_assemble seq kind, entry]
        exact .of_setEntry _ rfl rfl
      · split
        · exact .of_table rfl rfl
        · rw [State.completeAssembly_eq]
          exact .of_setEntry _ rfl rfl

theorem State.openAssembly_none {s : State} {e : EntryNo} (few : s.pool.free.length < (s.entry e).segments)
    (data : List Byte) (b : Byte) : s.openAssembly e data b = s.post e .dropped := by
  simp only [State.openAssembly, CellPool.allocate_eq_none.2 few]

theorem State.openAssembly_some {s : State} {e : EntryNo} (enough : (s.entry e).segments ≤ s.pool.free.length)
    (data : List Byte) (b : Byte) :
    s.openAssembly e data b =
      { s.setEntry e { s.entry e with staged := some (s.pool.free.take (s.entry e).segments) } with
        pool := CellPool.writeRecord (s.pool.free.take (s.entry e).segments)
          (CellPool.zero { s.pool with free := s.pool.free.drop (s.entry e).segments }
            (s.pool.free.take (s.entry e).segments)) 0 data
        line := { s.line with
          seq := some ⟨.assemble, (s.entry e).handle, e, 1, some (tagVersion b), some s.line.hold⟩ } } := by
  simp only [State.openAssembly, CellPool.allocate_eq_some.2 ⟨enough, rfl, rfl⟩]

/-- Settles O50: one case of a good capture after the other. -/
theorem goodCapturesAreApplied : Obligations.GoodCapturesAreApplied := by
  intro e data landing tagged captured s mode phase pending entry action working role landed landings size atLeast atMost memory once
    copies fields
  have ends : (s.landByte s.line.check).frameEnd .received = s.received.captureGood e :=
    State.frameEnd_captureReceived
      (State.serveRequest_of_not_space (s := s.landByte s.line.check) (by simp [State.landByte, phase])) entry working action
      role
  have parts : s.received.line.landing = data ++ [tagged] ++ [s.line.check] :=
    congrArg (· ++ [s.line.check]) landed
  have own : ∀ q : SequenceContext, s.line.seq = some q → q.entry = e ∧ q.kind = .assemble := fun q seq => by
    obtain ⟨_, own, kind⟩ := copies.receiving_sequence phase entry seq
    exact ⟨own, kind role⟩
  have kept := s.received.captureGood_reports e
  have only := State.captureGood_only (s := s.received) own
  subst fields landings
  refine ⟨_, exec_responseCharacter_good mode phase pending (by rw [size, landed]; simp) ends, kept.host, only.claims,
    kept.queue, only.index, only.inFlight, only.pin, only.other, fun single => ?_, fun several seq => ⟨fun full => ?_,
    fun cells enough head => ?_⟩, fun q cells several seq kind at_ next staged => ⟨fun version => ?_, fun version => ?_⟩⟩
  · rw [State.captureGood_single (s := s.received) parts single]
    obtain ⟨_, line⟩ := s.received.renew_only e ((s.entry e).captured tagged) data
    obtain ⟨overwrites, drops, makes⟩ := State.renew_renews (s := s.received) memory e ((s.entry e).captured tagged) atMost
    refine ⟨.of_received (congrArg (LineUnit.quieted · .skipping) line), fun cell current => ?_, drops, makes⟩
    obtain ⟨renewed, rest⟩ := overwrites cell current
    refine ⟨renewed.trans ?_, rest⟩
    rw [Entry.captured, ← current]
    rfl
  · rw [State.captureGood_first (s := s.received) parts several seq, State.openAssembly_none (s := s.received) full]
    exact ⟨.of_received (by rw [← seq]; rfl), rfl, rfl, rfl⟩
  · rw [State.captureGood_first (s := s.received) parts several seq, State.openAssembly_some (s := s.received) enough]
    subst head
    have length : (s.pool.free.take (s.entry e).segments).length = (s.entry e).segments := List.length_take_of_le enough
    have nodup : (s.pool.free.take (s.entry e).segments).Nodup := (List.take_sublist _ _).nodup once.free_nodup
    obtain ⟨holds, zeroed, others⟩ := CellPool.writeRecord_zeroed (s := s)
      (t := s.received.openAssembly e data tagged) (p := { s.pool with free := s.pool.free.drop (s.entry e).segments })
      memory rfl nodup (data := data) (by omega) (by rw [State.openAssembly_some (s := s.received) enough]; rfl)
    rw [State.openAssembly_some (s := s.received) enough] at holds zeroed others
    rw [length] at zeroed others
    exact ⟨.of_received rfl, State.entry_setEntry_self _ _ _,
      (CellPool.writeRecord_free _ _ _ _).trans (CellPool.zero_free _ _), holds, zeroed, others, rfl⟩
  · rw [State.captureGood_breaks (s := s.received) parts several seq version,
      State.breakSequence_assemble (s := s.received) seq kind, at_]
    have given : (s.received.entry e).staged.getD [] = cells := by
      rw [show (s.received.entry e).staged = some cells from staged]
      rfl
    rw [given]
    exact ⟨.of_received rfl, State.entry_setEntry_self _ _ _, rfl, rfl⟩
  · have given : (s.received.entry e).staged.getD [] = cells := by
      rw [show (s.received.entry e).staged = some cells from staged]
      rfl
    have nodup := (Entry.staged_sublist staged).nodup (once.cells_nodup e)
    obtain ⟨_, sizes, _⟩ := (copies.entries e).sizes
    have length := sizes cells staged
    have fits : 16 * q.next + data.length ≤ 16 * cells.length := by omega
    by_cases goesOn : q.next + 1 < (s.entry e).segments
    · rw [State.captureGood_goesOn (s := s.received) parts several seq version goesOn, State.continueAssembly, given]
      refine ⟨.writeRecord memory nodup fits rfl, .writeRecord memory rfl, fun _ => ⟨.of_received rfl, rfl, ?_, rfl⟩,
        fun last => absurd last (by omega)⟩
      exact CellPool.writeRecord_free _ _ _ _
    · have last : q.next + 1 = (s.entry e).segments := by omega
      rw [State.captureGood_completes (s := s.received) parts several seq version last,
        State.completeAssembly_eq, given]
      refine ⟨.writeRecord memory nodup fits rfl, .writeRecord memory rfl, fun middle => absurd middle goesOn,
        fun _ => ⟨.of_received rfl, State.entry_setEntry_self _ _ _, ?_, rfl⟩⟩
      exact congrArg (· ++ (s.entry e).current.getD []) (CellPool.writeRecord_free _ _ _ _)

end Sys2Proof.Machine
end

section
/-! PROOFS. What a complete answer hands to the other blocks (O46). -/

namespace Sys2Proof.Machine

theorem LineSettles.of_quieted {s t : State} {p : Phase} {q : Option SequenceContext}
    (line : t.line = { s.line with seq := q }.quieted p) : LineSettles p q s.line.landing s t := by
  rw [LineSettles, line]
  rfl

theorem exec_answerComplete {s : State} (mode : s.line.mode = .listen) (phase : s.line.phase = .answering)
    (matched : s.line.collided = false) (offline : s.host.work ≠ some .offline) (restart : s.host.work ≠ some .restart) :
    exec .answerComplete s = .next ((s.frameEnd .completed).enterQuiet .waiting) := by
  refine congrArg Host.Outcome.next (if_pos ⟨mode, phase, matched, ?_⟩)
  unfold State.readbackStopped
  split <;> simp_all

/-! ## The report of a complete answer, by its action (R45, R70, R76, R110, R120, R121) -/

section
variable {s : State} {e : EntryNo} (served : s.serveRequest = s) (entry : s.line.frame.entry = some e)
  (working : (s.entry e).state.working = true)
include served entry working

theorem State.frameEnd_answered (action : s.line.frame.action = some .fetch) (role : (s.entry e).role = .source) :
    s.frameEnd .completed = (s.setInFlight none).fetchAnswered .completed e := by
  have claims : s.reportToClaims .completed e = s := by simp only [State.reportToClaims, action]
  rw [State.frameEnd_of_entry served entry, claims]
  simp [State.reportToTable, EntryState.ne_retiring_of_working working, action, role]

/-- An answer that is no FETCH, and no RETIRE that takes effect, is reported to the Claim Table alone. -/
theorem State.frameEnd_answered_other {a : Action} (action : s.line.frame.action = some a) (fetch : a ≠ .fetch)
    (retire : a = .retire → s.line.frame.code = some .refused) :
    s.frameEnd .completed = (s.reportToClaims .completed e).setInFlight none := by
  rw [State.frameEnd_of_entry served entry]
  have retiring := EntryState.ne_retiring_of_working working
  cases a with
  | fetch => exact absurd rfl fetch
  | retire => simp [State.reportToTable, retiring, action, retire rfl]
  | _ => simp [State.reportToTable, retiring, action]

end

theorem State.reportToClaims_claim {s : State} (action : s.line.frame.action = some .claim) (e : EntryNo) :
    s.reportToClaims .completed e = s.claimAnswered := by
  simp only [State.reportToClaims, action, if_true]

theorem State.reportToClaims_released {s : State} {tag : Tag} (action : s.line.frame.action = some .release)
    (code : s.line.frame.code = some .released) (tagged : s.line.frame.tag = some tag) (e : EntryNo) :
    s.reportToClaims .completed e = s.releaseAnswered e tag := by
  simp [State.reportToClaims, action, code, tagged]

/-- A PROBE, a RETIRE, and a RELEASE that is not granted hold no claim (R76, R103). -/
theorem State.reportToClaims_plain {s : State} {a : Action} (action : s.line.frame.action = some a)
    (plain : a = .probe ∨ a = .retire ∨ a = .release ∧ s.line.frame.code ≠ some .released) (e : EntryNo) :
    s.reportToClaims .completed e = s := by
  rcases plain with rfl | rfl | ⟨rfl, code⟩ <;> simp [State.reportToClaims, *]

theorem State.claimAnswered_none {s : State} (none : ∀ k : SlotNo, (s.claims.slot k).isReserved = false) :
    s.claimAnswered = s := by
  simp only [State.claimAnswered, (ClaimTable.reservedSlot_eq_none s.claims).2 none]

theorem State.claimAnswered_reserved {s : State} (ok : ClaimsOk s) {e : EntryNo} (entry : s.line.frame.entry = some e)
    (working : (s.entry e).state.working = true) {k : SlotNo} {tag : Tag} {lease : Nat} {renewal : Bool}
    (slot : s.claims.slot k = .reserved e tag lease renewal) :
    s.claimAnswered = if renewal then s.setSlot k (.heldLine e tag s.claims.lease)
      else (s.setSlot k (.heldLine e tag s.claims.lease)).post e .claimTaken := by
  simp only [State.claimAnswered, ok.reservedSlot_eq entry slot, slot, if_neg (EntryState.ne_retiring_of_working working)]

theorem State.releaseAnswered_held {s : State} (ok : ClaimsOk s) {e : EntryNo}
    (working : (s.entry e).state.working = true) {k : SlotNo} {tag : Tag} {lease : Nat}
    (slot : s.claims.slot k = .heldLine e tag lease) :
    s.releaseAnswered e tag = (s.setSlot k .free).post e .claimEnded := by
  have found : s.claims.slotOf e = some k := ok.slotOf (by simp [slot, Slot.names])
  simp [State.releaseAnswered, found, slot, EntryState.ne_retiring_of_working working]

theorem State.releaseAnswered_gone {s : State} (ok : ClaimsOk s) {e : EntryNo} {tag : Tag}
    (gone : ∀ (k : SlotNo) (lease : Nat), s.claims.slot k ≠ .heldLine e tag lease) : s.releaseAnswered e tag = s := by
  unfold State.releaseAnswered
  split
  · rfl
  · next k found =>
    split
    · next d u lease slot =>
      have names := (ClaimTable.slotOf_eq_some (ok.unique e) k).1 found
      rw [slot] at names
      have own : d = e := by simpa [Slot.names] using names
      refine if_neg fun same => gone k lease ?_
      rw [slot, own, same.1]
    all_goals rfl

theorem State.fetchAnswered_keeps (s : State) (how : FrameEnd) (e : EntryNo) :
    (s.fetchAnswered how e).table.index = s.table.index ∧ (s.fetchAnswered how e).table.inFlight = s.table.inFlight ∧
      (s.fetchAnswered how e).pool.bytes = s.pool.bytes := by
  unfold State.fetchAnswered
  dsimp only
  split
  · split
    · exact ⟨rfl, rfl, rfl⟩
    · simp
  · simp

/-- The answer of a segment below the last: a SERVE sequence is left open, and owns the pin (R45, R110). -/
theorem State.fetchAnswered_goesOn {s : State} {e : EntryNo} {segment : Tag} (asked : s.line.frame.segment = some segment)
    (more : segment.toNat + 1 < (s.entry e).segments) :
    s.fetchAnswered .completed e = s.openServe e segment.toNat := by
  simp [State.fetchAnswered, asked, more]

/-- The answer of the last segment: the pin is released and no sequence is left (R46, R110). -/
theorem State.fetchAnswered_ends {s : State} {e : EntryNo} {segment : Tag} (asked : s.line.frame.segment = some segment)
    (last : (s.entry e).segments ≤ segment.toNat + 1) :
    s.fetchAnswered .completed e = s.releasePin.setSeq none := by
  simp [State.fetchAnswered, asked, Nat.not_lt.2 last]

/-- Settles O46, by the action of the frame and what its answer was. -/
theorem completeAnswersTakeEffect : Obligations.CompleteAnswersTakeEffect := by
  intro a e s mode pending phase matched offline restart entry action store retire working role claims
  have served := State.serveRequest_answering phase
  have ends := s.frameEnd_ends .completed
  have runs : exec .answerComplete s = .next { s.frameEnd .completed with
      line := (s.frameEnd .completed).line.quieted .waiting } :=
    (exec_answerComplete mode phase matched offline restart).trans
      (congrArg Host.Outcome.next (State.enterQuiet_of_not_pending (by rw [ends.line]; exact pending) _))
  have queue := ends.queue
  by_cases fetch : a = .fetch
  · subst fetch
    have host := ends.host
    rw [State.frameEnd_answered served entry working action role] at runs queue host
    obtain ⟨index, inFlight, bytes⟩ := (s.setInFlight none).fetchAnswered_keeps .completed e
    refine ⟨_, runs, host, inFlight, index, bytes, queue, fun h => absurd rfl h, (by rintro (h | h | ⟨h, _⟩ | ⟨h, _⟩) <;> cases h),
      nofun, nofun, fun p segment _ asked pin own => ?_⟩
    subst own
    by_cases more : segment.toNat + 1 < (s.entry p.entry).segments
    · rw [State.fetchAnswered_goesOn (s := s.setInFlight none) asked more]
      refine ⟨rfl, rfl, fun _ => ⟨rfl, ?_, rfl⟩, fun last => absurd more (Nat.not_lt.2 last)⟩
      show ({ s.table with inFlight := none, pin := s.table.pin.map fun p => ({ p with owner := .sequence } : Pin) } : TableController) = _
      rw [pin]
      rfl
    · rw [State.fetchAnswered_ends (s := s.setInFlight none) asked (Nat.not_lt.1 more)]
      refine ⟨(s.setInFlight none).releasePin_claims, (s.setInFlight none).releasePin_attention, fun less => absurd less more,
        fun _ => ⟨?_, (s.setInFlight none).releasePin_pin, ?_⟩⟩
      · refine .of_quieted ?_
        exact congrArg (fun l : LineUnit => LineUnit.quieted { l with seq := none } .waiting)
          (s.setInFlight none).releasePin_line
      · obtain ⟨e, kind, owner⟩ := p
        cases kind with
        | current =>
          have eq : (s.setInFlight none).releasePin = (s.setInFlight none).setPin none := by
            rw [State.releasePin_eq, show (s.setInFlight none).table.pin = some ⟨e, .current, owner⟩ from pin]
          rw [eq]
          exact ⟨fun _ _ => rfl, fun _ => ⟨rfl, rfl⟩, nofun⟩
        | held =>
          have eq : (s.setInFlight none).releasePin = ((s.setInFlight none).setPin none).freeHeld e := by
            rw [State.releasePin_eq, show (s.setInFlight none).table.pin = some ⟨e, .held, owner⟩ from pin]
          rw [eq, State.freeHeld_eq]
          refine ⟨fun d hd => State.entry_setEntry_ne _ _ hd, nofun, fun copy _ held => ⟨State.entry_setEntry_self _ _ _, ?_⟩⟩
          show s.pool.release (((s.entry e).held.map HeldCopy.cells).getD []) = _
          rw [held]
          rfl
  · rw [State.frameEnd_answered_other served entry working action fetch retire] at runs queue
    have table := s.reportToClaims_table .completed e
    have pool := s.reportToClaims_pool .completed e
    have line := s.reportToClaims_line .completed e
    have host := s.reportToClaims_host .completed e
    refine ⟨_, runs, host, rfl, (congrArg TableController.index table).trans rfl, (congrArg CellPool.bytes pool).trans rfl, queue,
      fun _ => ⟨congrArg (fun x : TableController => { x with inFlight := none }) table, pool,
        .of_quieted (congrArg (LineUnit.quieted · .waiting) line)⟩,
      fun plain => ?_, fun k tag lease renewal claim slot => ?_,
      fun tag release code tagged => ⟨fun k lease slot => ?_, fun gone => ?_⟩, fun _ _ h => absurd h fetch⟩
    · have nothing : s.reportToClaims .completed e = s := by
        rcases plain with h | h | h | ⟨rfl, none⟩
        · exact State.reportToClaims_plain action (.inl h) e
        · exact State.reportToClaims_plain action (.inr (.inl h)) e
        · exact State.reportToClaims_plain action (.inr (.inr h)) e
        · rw [State.reportToClaims_claim action, State.claimAnswered_none none]
      rw [nothing]
      exact ⟨rfl, rfl⟩
    · subst claim
      rw [State.reportToClaims_claim action, State.claimAnswered_reserved claims entry working slot]
      cases renewal <;> exact ⟨rfl, rfl⟩
    · subst release
      rw [State.reportToClaims_released action code tagged, State.releaseAnswered_held claims working slot]
      exact ⟨rfl, rfl⟩
    · subst release
      rw [State.reportToClaims_released action code tagged, State.releaseAnswered_gone claims gone]
      exact ⟨rfl, rfl⟩

end Sys2Proof.Machine
end

section
/-! PROOFS. Frame ends that tear an entry down: a RETIRED answer, and the end of any frame on a RETIRING record (O47). -/

namespace Sys2Proof.Machine

/-! ## What a teardown at a frame's end leaves -/

/-- An entry torn down at the end of the frame in flight on it (R22, R25, R26): everything but the entry itself, the
Attention Unit and the Line Unit. -/
structure TornDown (e : EntryNo) (s t : State) : Prop where
  other : ∀ d : EntryNo, d ≠ e → t.entry d = s.entry d
  gone : t.table.lookup (s.entry e).handle = none
  kept : ∀ h : Handle, h ≠ (s.entry e).handle → t.table.lookup h = s.table.lookup h
  inFlight : t.table.inFlight = none
  pin : t.table.pin = s.table.pin.filter fun p => decide (p.entry ≠ e)
  pool : t.pool = { s.pool with free := s.pool.free ++ (s.entry e).cells }
  lease : t.claims.lease = s.claims.lease
  slots : ∀ k : SlotNo, t.claims.slot k = if (s.claims.slot k).names e = true then .free else s.claims.slot k

/-- The Claim Table with slots of the entry freed, if any, and nothing else (R71). -/
structure FreesOnly (e : EntryNo) (c d : ClaimTable) : Prop where
  lease : d.lease = c.lease
  slots : ∀ k : SlotNo, d.slot k = c.slot k ∨ (c.slot k).names e = true ∧ d.slot k = .free

theorem FreesOnly.refl (e : EntryNo) (c : ClaimTable) : FreesOnly e c c := ⟨rfl, fun _ => .inl rfl⟩

theorem FreesOnly.setSlot {e : EntryNo} {c : ClaimTable} {k : SlotNo} (names : (c.slot k).names e = true) :
    FreesOnly e c (c.setSlot k .free) where
  lease := rfl
  slots j := by
    by_cases hj : j = k
    · subst hj
      exact .inr ⟨names, ClaimTable.slot_setSlot_self c j _⟩
    · exact .inl (ClaimTable.slot_setSlot_ne c _ hj)

/-- Freeing the entry's slot after some of its slots have gone already (R22, R71). -/
theorem FreesOnly.freeClaim {e : EntryNo} {c d : ClaimTable} (h : FreesOnly e c d) (k : SlotNo) :
    (d.freeClaim e).slot k = if (c.slot k).names e = true then .free else c.slot k := by
  rw [ClaimTable.slot_freeClaim]
  rcases h.slots k with same | ⟨names, free⟩
  · rw [same]
  · rw [free, if_pos names]
    exact if_neg (by simp [Slot.names])

/-- A state whose parts are those of a teardown of `e`, but for the entry's own fields. -/
theorem IndexOk.tornDown {s r t : State} (ok : IndexOk s) {e : EntryNo} (indexed : (s.entry e).state.indexed = true)
    (table : r.table = { s.table with inFlight := none }) (pool : r.pool = s.pool) (claims : FreesOnly e s.claims r.claims)
    {x : Entry} (after : t.table = (r.teardown e).table.setEntry e x) (rest : t.pool = (r.teardown e).pool)
    (freed : t.claims = (r.teardown e).claims) : TornDown e s t := by
  have entry : ∀ d : EntryNo, r.entry d = s.entry d := fun d => by simp only [State.entry, table]; rfl
  have lookup : ∀ h : Handle, r.table.lookup h = s.table.lookup h := fun h => by rw [table]; rfl
  have index : IndexOk r := fun h d => by rw [lookup, entry]; exact ok h d
  refine ⟨fun d hd => ?_, ?_, fun h other => ?_, ?_, ?_, ?_, ?_, fun k => ?_⟩
  · rw [State.entry, after, TableController.entry_setEntry_ne _ _ hd]
    exact (r.teardown_entry_ne hd).trans (entry d)
  · rw [after, TableController.lookup_setEntry, ← entry]
    exact index.teardown_gone (by rw [entry]; exact indexed)
  · rw [after, TableController.lookup_setEntry, index.teardown_kept (by rw [entry]; exact other), lookup]
  · rw [after, TableController.setEntry_inFlight, State.teardown_inFlight, table]
  · rw [after, TableController.setEntry_pin, State.teardown_eq, table]
  · rw [rest, State.teardown_eq, pool, entry]
  · rw [freed, State.teardown_eq]
    exact claims.lease
  · rw [freed, State.teardown_eq]
    exact claims.freeClaim k

/-! ## The reports of a frame's end on a RETIRING record (R25) -/

/-- The one RESERVED slot names the entry of the frame in flight (R67). -/
theorem ClaimsOk.reserved_own {s : State} (ok : ClaimsOk s) {e : EntryNo} (entry : s.line.frame.entry = some e) {k : SlotNo}
    {d : EntryNo} {tag : Tag} {lease : Nat} {renewal : Bool} (slot : s.claims.slot k = .reserved d tag lease renewal) :
    d = e := by
  have reserved := ok.slots k
  rw [slot] at reserved
  obtain ⟨_, _, _, _, _, _, own, _⟩ := reserved
  exact Option.some.inj (own.symm.trans entry)

section
variable {s : State} {e : EntryNo} (entry : s.line.frame.entry = some e) (retiring : (s.entry e).state = .retiring)
  (claims : ClaimsOk s) (closed : (s.attention.record e).posting = .closed)
  (attn : s.attention.attn = (!s.attention.list.isEmpty || s.attention.conditions != 0#8))
include entry retiring claims closed attn

/-- On a RETIRING record the Claim Table frees at most the reservation, and no cause is kept (R25, R71, R156). -/
theorem State.reportToClaims_retiring (how : FrameEnd) :
    (s.reportToClaims how e).attention = s.attention ∧ FreesOnly e s.claims (s.reportToClaims how e).claims := by
  have same : s.attention = s.attention ∧ FreesOnly e s.claims s.claims := ⟨rfl, .refl e s.claims⟩
  unfold State.reportToClaims
  split
  · split
    · unfold State.claimAnswered
      split
      · exact same
      · split
        · next k _ d tag lease renewal slot =>
          rw [claims.reserved_own entry slot, if_pos retiring]
          exact same
        all_goals exact same
    · unfold State.claimFailed
      split
      · exact same
      · split
        · next k _ _ d tag lease renewal slot =>
          have own := claims.reserved_own entry slot
          subst own
          have frees : FreesOnly d s.claims (s.claims.setSlot k .free) := .setSlot (by simp [slot, Slot.names])
          cases renewal
          · exact ⟨rfl, frees⟩
          · exact ⟨AttentionUnit.post_closed closed attn _, frees⟩
        all_goals exact same
  · split
    · unfold State.releaseAnswered
      split
      · exact same
      · split
        · rw [if_neg fun h => h.2 retiring]
          exact same
        all_goals exact same
    · exact same
  all_goals exact same

/-- Every end of the frame in flight on a RETIRING record leaves it VACANT (R25). -/
theorem State.frameEnd_retiring (served : s.serveRequest = s) (index : IndexOk s) (how : FrameEnd) :
    TornDown e s (s.frameEnd how) ∧ (s.frameEnd how).entry e = Entry.vacant ∧ (s.frameEnd how).attention = s.attention ∧
      (s.frameEnd how).line = { s.line with seq := s.line.seq.filter fun q => decide (q.entry ≠ e) } := by
  obtain ⟨attention, frees⟩ := State.reportToClaims_retiring entry retiring claims closed attn how
  have line := s.reportToClaims_line how e
  have eq : s.frameEnd how = (((s.reportToClaims how e).setInFlight none).teardown e).vacate e := by
    rw [State.frameEnd_of_entry served entry]
    exact if_pos (by rw [State.setInFlight_entry, State.reportToClaims_entry]; exact retiring)
  rw [eq]
  refine ⟨index.tornDown (r := (s.reportToClaims how e).setInFlight none) (by rw [retiring]; rfl) ?_
    (s.reportToClaims_pool how e) frees (State.vacate_table _ _) (State.vacate_pool _ _) (State.vacate_claims _ _),
    State.entry_vacate_self _ _, ?_, ?_⟩
  · rw [State.setInFlight_table, s.reportToClaims_table]
  · rw [State.vacate_attention, State.teardown_attention]
    exact attention
  · rw [State.vacate_line, State.teardown_eq, State.setInFlight_line, line]

end

/-! ## A RETIRED answer (R26) -/

theorem State.endEntry_table (s : State) (e : EntryNo) : (s.endEntry e).table =
    (s.teardown e).table.setEntry e { (s.teardown e).entry e with state := .ended, age := 0 } := by
  rw [State.endEntry_eq, State.post_table, State.setPosting_table, State.setEntry_table]

theorem State.endEntry_claims (s : State) (e : EntryNo) : (s.endEntry e).claims = (s.teardown e).claims := by
  rw [State.endEntry_eq, State.post_claims, State.setPosting_claims, State.setEntry_claims]

/-- A RETIRED answer sent to its end leaves the entry ENDED (R26). -/
theorem State.frameEnd_ended {s : State} {e : EntryNo} (served : s.serveRequest = s) (entry : s.line.frame.entry = some e)
    (working : (s.entry e).state.working = true) (action : s.line.frame.action = some .retire)
    (code : s.line.frame.code = some .retired) (index : IndexOk s) :
    TornDown e s (s.frameEnd .completed) ∧
      (s.frameEnd .completed).entry e =
        { s.entry e with state := .ended, age := 0, current := none, staged := none, held := none } ∧
      (s.frameEnd .completed).attention =
        (s.attention.setRecord e { s.attention.record e with posting := .ending }).post e (1#13 <<< 12) ∧
      (s.frameEnd .completed).line = { s.line with seq := s.line.seq.filter fun q => decide (q.entry ≠ e) } := by
  have plain : s.reportToClaims .completed e = s := State.reportToClaims_plain action (.inr (.inl rfl)) e
  have eq : s.frameEnd .completed = (s.setInFlight none).endEntry e := by
    rw [State.frameEnd_of_entry served entry, plain]
    simp [State.reportToTable, EntryState.ne_retiring_of_working working, action, code]
  rw [eq]
  refine ⟨index.tornDown (r := s.setInFlight none) (EntryState.indexed_of_working working) rfl rfl (.refl e s.claims)
    (State.endEntry_table _ e) (State.endEntry_pool _ e) (State.endEntry_claims _ e), ?_, State.endEntry_attention _ _, ?_⟩
  · rw [State.endEntry_entry_self]
    rfl
  · rw [State.endEntry_eq, State.post_line, State.setPosting_line, State.setEntry_line, State.teardown_eq]
    rfl

/-! ## The events that end a frame (R98, R131 to R136, R139, R148) -/

/-- What was torn down is told by the table, the pool and the claims alone. -/
theorem TornDown.of_like {e : EntryNo} {s r t : State} (h : TornDown e r t) (table : r.table = s.table)
    (pool : r.pool = s.pool) (claims : r.claims = s.claims) : TornDown e s t := by
  have entry : ∀ d : EntryNo, r.entry d = s.entry d := fun d => congrArg (fun x : TableController => x.entry d) table
  refine ⟨fun d hd => (h.other d hd).trans (entry d), ?_, fun x hx => ?_, h.inFlight, ?_, ?_, ?_, fun k => ?_⟩
  · rw [← entry]; exact h.gone
  · rw [← table]; exact h.kept x (by rw [entry]; exact hx)
  · rw [← table]; exact h.pin
  · rw [← entry, ← pool]; exact h.pool
  · rw [← claims]; exact h.lease
  · rw [← claims]; exact h.slots k

/-- A cause against a record that keeps none is discarded (R156). -/
theorem State.postFrame_closed {s : State} {e : EntryNo} (entry : s.line.frame.entry = some e)
    (closed : (s.attention.record e).posting = .closed)
    (attn : s.attention.attn = (!s.attention.list.isEmpty || s.attention.conditions != 0#8)) (c : Cause) :
    s.postFrame c = s := by
  rw [State.postFrame_of_entry entry, State.post, AttentionUnit.post_closed closed attn]

/-- The events that end a frame and settle the phase: the reports, with a cause in some of them, then the phase. -/
theorem exec_settles {c : Instr} {s : State} {p : Phase} {landing : List Byte} (mode : s.line.mode = .listen)
    (offline : s.host.work ≠ some .offline) (restart : s.host.work ≠ some .restart)
    (event : c = .answerComplete ∧ s.line.phase = .answering ∧ s.line.collided = false ∧ p = .waiting ∧
            landing = s.line.landing ∨
          c = .collidedCharacterEnd false ∧ s.line.phase = .answering ∧ s.line.collided = true ∧ p = .skipping ∧
            landing = s.line.landing ∨
          c = .spaceCollision ∧ s.line.phase = .space ∧ p = .skipping ∧ landing = s.line.landing ∨
          c = .responseWindowDeadline ∧ s.line.phase = .receiving ∧ p = .skipping ∧ landing = s.line.landing ∨
          (∃ b : Byte, c = .responseCharacter b true) ∧ s.line.phase = .receiving ∧ p = .skipping ∧
            landing = s.line.landing ∨
          (∃ b : Byte, c = .responseCharacter b false ∧ landing = s.line.landing ++ [b]) ∧
            s.line.phase = .receiving ∧ s.line.frame.n = some (s.line.landing.length + 1) ∧ p = .skipping) :
    ∃ (check : Byte) (assembling startSeen edge : Bool) (how : FrameEnd) (u : State),
      (u = ({ s with line := s.line.heard landing check assembling startSeen edge } : State).frameEnd how ∨
        ∃ cause : Cause, u =
          (({ s with line := s.line.heard landing check assembling startSeen edge } : State).frameEnd how).postFrame cause) ∧
      exec c s = .next (u.enterQuiet p) := by
  rcases event with ⟨rfl, phase, matched, rfl, rfl⟩ | ⟨rfl, phase, mismatch, rfl, rfl⟩ | ⟨rfl, phase, rfl, rfl⟩ |
    ⟨rfl, phase, rfl, rfl⟩ | ⟨⟨b, rfl⟩, phase, rfl, rfl⟩ | ⟨⟨b, rfl, rfl⟩, phase, size, rfl⟩
  · exact ⟨_, _, _, _, .completed, _, .inl rfl, exec_answerComplete mode phase matched offline restart⟩
  · exact ⟨_, _, _, _, .collided, _, .inr ⟨.collided, rfl⟩,
      exec_collidedCharacterEnd mode phase mismatch offline restart false⟩
  · exact ⟨_, _, _, _, .collided, _, .inr ⟨.collided, rfl⟩, congrArg Host.Outcome.next (if_pos ⟨mode, phase⟩)⟩
  · exact ⟨_, _, _, _, .faulty, _, .inr ⟨_, rfl⟩, exec_responseWindowDeadline mode phase⟩
  · exact ⟨_, _, _, _, .faulty, _, .inr ⟨.damaged, rfl⟩, exec_responseCharacter_framing mode phase b⟩
  · have last := exec_responseCharacter_last mode phase size b
    by_cases good : b = s.line.check
    · exact ⟨_, _, _, _, .received, _, .inl rfl, last.trans (congrArg Host.Outcome.next (if_pos good))⟩
    · exact ⟨_, _, _, _, .faulty, _, .inr ⟨.damaged, rfl⟩, last.trans (congrArg Host.Outcome.next (if_neg good))⟩

/-- The events that end a frame with a break that goes on. -/
theorem exec_breaks {c : Instr} {s : State} {bit : BitVec 8} (mode : s.line.mode = .listen)
    (event : c = .collidedCharacterEnd true ∧ s.line.phase = .answering ∧ s.line.collided = true ∧
            s.host.work ≠ some .offline ∧ s.host.work ≠ some .restart ∧ bit = 0x00#8 ∨
          c = .breakRecognised ∧ s.line.phase = .space ∧ bit = 0x00#8 ∨
          c = .breakRecognised ∧ s.line.phase = .receiving ∧ bit = 0x40#8) :
    ∃ (r : State) (how : FrameEnd) (cause : Cause),
      (r = s ∧ bit = 0x00#8 ∨ r = s.setCondition .cut ∧ bit = 0x40#8) ∧
      exec c s = .next ((r.frameEnd how).postFrame cause).newFrame := by
  rcases event with ⟨rfl, phase, mismatch, offline, restart, bit⟩ | ⟨rfl, phase, bit⟩ | ⟨rfl, phase, bit⟩
  · exact ⟨s, .collided, .collided, .inl ⟨rfl, bit⟩, exec_collidedCharacterEnd mode phase mismatch offline restart true⟩
  · refine ⟨s, .collided, .collided, .inl ⟨rfl, bit⟩, ?_⟩
    rw [exec_breakRecognised mode, State.reachBreak, phase]
    rfl
  · refine ⟨s.setCondition .cut, .cut, .damaged, .inr ⟨rfl, bit⟩, ?_⟩
    rw [exec_breakRecognised mode, State.reachBreak, phase]

/-- The end of a frame on a RETIRING record, in a state that differs from the one given in its Line Unit, its Host Port and
its line conditions alone. -/
theorem State.frameEnd_retires {s r : State} {e : EntryNo} (table : r.table = s.table) (pool : r.pool = s.pool)
    (claims : r.claims = s.claims) (phase : r.line.phase = s.line.phase) (frame : r.line.frame = s.line.frame)
    (records : r.attention.records = s.attention.records)
    (attn : r.attention.attn = (!r.attention.list.isEmpty || r.attention.conditions != 0#8))
    (entry : s.line.frame.entry = some e) (asking : s.line.phase = .space → s.line.frame.asking = false)
    (retiring : (s.entry e).state = .retiring) (index : IndexOk s) (attention : AttentionOk s) (ok : ClaimsOk s)
    (how : FrameEnd) :
    TornDown e s (r.frameEnd how) ∧ (r.frameEnd how).entry e = Entry.vacant ∧ (r.frameEnd how).attention = r.attention ∧
      (r.frameEnd how).line = { r.line with seq := r.line.seq.filter fun q => decide (q.entry ≠ e) } ∧
      ∀ cause : Cause, (r.frameEnd how).postFrame cause = r.frameEnd how := by
  have entries : ∀ d : EntryNo, r.entry d = s.entry d := fun d => congrArg (fun x : TableController => x.entry d) table
  have closed : (r.attention.record e).posting = .closed := by
    have follows := attention.follows e
    rw [retiring] at follows
    simp only [AttentionUnit.record, records]
    exact follows
  have served : r.serveRequest = r := by
    by_cases space : s.line.phase = .space
    · exact State.serveRequest_of_not_asking (by rw [frame]; exact asking space)
    · exact State.serveRequest_of_not_space (by rw [phase]; exact space)
  obtain ⟨torn, vacant, kept, line⟩ := State.frameEnd_retiring (s := r) (by rw [frame]; exact entry) (by rw [entries]; exact retiring)
    (ok.congr claims (.of_entries (by rw [table])) phase frame) closed attn served
    (fun h d => by rw [table, entries]; exact index h d) how
  refine ⟨torn.of_like table pool claims, vacant, kept, line, State.postFrame_closed (e := e) ?_ ?_ ?_⟩
  · rw [line]; exact (congrArg FrameContext.entry frame).trans entry
  · rw [kept]; exact closed
  · rw [kept]; exact attn

/-- Settles O47: a RETIRED answer ends the entry; any other end of a frame on a RETIRING record vacates it, and the event
says what becomes of the Line Unit, the Host Port and the line conditions. -/
theorem frameEndsTearDown : Obligations.FrameEndsTearDown := by
  intro c ends e s mode entry index attention claims _ asking kinds p landing settles breaks offline bit event
  rcases kinds with ⟨rfl, rfl, action, code, working⟩ | ⟨rfl, retiring⟩
  · rcases event with ⟨rfl, rfl, rfl, rfl, pending, off, restart, event⟩ | ⟨_, _, _, no, _⟩ | ⟨_, _, _, no, _⟩
    · obtain ⟨phase, matched, rfl, rfl⟩ : s.line.phase = .answering ∧ s.line.collided = false ∧ p = .waiting ∧
          landing = s.line.landing := by
        rcases event with ⟨_, h⟩ | ⟨h, _⟩ | ⟨h, _⟩ | ⟨h, _⟩ | ⟨⟨_, h⟩, _⟩ | ⟨⟨_, h, _⟩, _⟩
        · exact h
        all_goals cases h
      have left := s.frameEnd_ends .completed
      obtain ⟨torn, ended, posted, line⟩ := State.frameEnd_ended (State.serveRequest_answering phase) entry working action code index
      have runs := (exec_answerComplete mode phase matched off restart).trans
        (congrArg Host.Outcome.next (State.enterQuiet_of_not_pending (by rw [line]; exact pending) _))
      refine ⟨_, runs, left.queue, left.host, fun _ => .of_quieted (congrArg (LineUnit.quieted · .waiting) line), nofun, nofun,
        torn.other, fun _ => ended, nofun, torn.gone, torn.kept, torn.inFlight, torn.pin, torn.pool, torn.lease, torn.slots, ?_⟩
      exact posted
    · cases no
    · cases no
  · have attn := attention.attn
    rcases event with ⟨rfl, rfl, rfl, rfl, pending, off, restart, event⟩ | ⟨rfl, rfl, rfl, _, event⟩ | ⟨rfl, rfl, rfl, _, own, event⟩
    · obtain ⟨check, assembling, startSeen, edge, how, u, reports, runs⟩ := exec_settles mode off restart event
      obtain ⟨torn, vacant, kept, line, discards⟩ := State.frameEnd_retires (s := s)
        (r := { s with line := s.line.heard landing check assembling startSeen edge }) rfl rfl rfl rfl rfl rfl attn entry asking
        retiring index attention claims how
      have same : u = ({ s with line := s.line.heard landing check assembling startSeen edge } : State).frameEnd how := by
        rcases reports with h | ⟨cause, h⟩
        · exact h
        · exact h.trans (discards cause)
      have left := ({ s with line := s.line.heard landing check assembling startSeen edge } : State).frameEnd_ends how
      rw [← same] at torn vacant kept line left
      rw [State.enterQuiet_of_not_pending (by rw [line]; exact pending)] at runs
      refine ⟨_, runs, left.queue, left.host, fun _ => ?_, nofun, nofun,
        torn.other, nofun, fun _ => ⟨congrArg Entry.state vacant, congrArg Entry.cells vacant⟩, torn.gone, torn.kept,
        torn.inFlight, torn.pin, torn.pool, torn.lease, torn.slots, kept⟩
      simp only [LineSettles, line, LineUnit.heard]
    · obtain ⟨r, how, cause, reports, runs⟩ := exec_breaks mode event
      obtain ⟨table, pool, claim, line, host, queue, records, asserted, after⟩ : r.table = s.table ∧ r.pool = s.pool ∧
          r.claims = s.claims ∧ r.line = s.line ∧ r.host = s.host ∧ QueueKept s r ∧
          r.attention.records = s.attention.records ∧
          r.attention.attn = (!r.attention.list.isEmpty || r.attention.conditions != 0#8) ∧
          r.attention = if bit = 0x00#8 then s.attention
            else { s.attention with conditions := s.attention.conditions ||| bit, attn := true } := by
        rcases reports with ⟨rfl, rfl⟩ | ⟨rfl, rfl⟩
        · exact ⟨rfl, rfl, rfl, rfl, rfl, .refl _, rfl, attn, rfl⟩
        · exact ⟨rfl, rfl, rfl, rfl, rfl, ⟨rfl, rfl, rfl⟩, rfl, rfl, s.setCondition_attention_eq .cut⟩
      obtain ⟨torn, vacant, kept, lines, discards⟩ := State.frameEnd_retires (s := s) table pool claim (by rw [line])
        (by rw [line]) records asserted entry asking retiring index attention claims how
      have left := r.frameEnd_ends how
      rw [discards cause, State.newFrame_eq] at runs
      refine ⟨_, runs, queue.trans left.queue, left.host.trans host, nofun, fun _ => ?_, nofun, torn.other, nofun,
        fun _ => ⟨congrArg Entry.state vacant, congrArg Entry.cells vacant⟩, torn.gone, torn.kept, torn.inFlight, torn.pin,
        torn.pool, torn.lease, torn.slots, kept.trans after⟩
      simp only [lines, line]
      rfl
    · obtain ⟨collided, offline, bits⟩ : ∃ collided : Bool,
          ((c = .setMode 0x00#8 ∧ s.Takes c ∧ collided = false ∧ (s.line.phase = .space ∨ s.line.phase = .receiving)) ∨
            (c = .offlineCharacterEnd ∧ s.host.work = some .offline ∧ s.line.phase = .answering ∧
              s.line.collided = collided)) ∧ bit = if collided = true then 0x00#8 else 0x80#8 := by
        rcases event with ⟨hc, takes, phase, bits⟩ | ⟨hc, work, phase, bits⟩
        · exact ⟨false, .inl ⟨hc, takes, rfl, phase⟩, bits⟩
        · exact ⟨s.line.collided, .inr ⟨hc, work, phase, rfl⟩, bits⟩
      obtain ⟨x, completed, runs⟩ := exec_offline_ends offline mode
      have retires := State.frameEnd_retires (s := s) (r := { s with host := x }) rfl rfl rfl rfl rfl rfl attn entry asking
        retiring index attention claims
      have closes : (s.line.seq.filter fun q => decide (q.entry ≠ e)) = none := by
        rw [Option.filter_eq_none_iff]
        exact fun q seq => by simp [own q seq]
      have seq : ∀ how : FrameEnd, (({ s with host := x } : State).frameEnd how).line.seq = none := fun how => by
        obtain ⟨_, _, _, line, _⟩ := retires how
        rw [line]
        exact closes
      obtain ⟨how, runs⟩ : ∃ how : FrameEnd, exec c s = .next { ({ s with host := x } : State).frameEnd how with
          attention := if bit = 0x00#8 then s.attention
            else { s.attention with conditions := s.attention.conditions ||| bit, attn := true }
          line := (({ s with host := x } : State).frameEnd how).line.quit .offline
          host := s.host.completed .done [0x00#8] } := by
        cases collided with
        | true =>
          obtain ⟨_, _, kept, _, discards⟩ := retires .collided
          have eq : ({ s with host := x } : State).frameCollided = ({ s with host := x } : State).frameEnd .collided :=
            discards .collided
          refine ⟨.collided, runs.trans (congrArg Host.Outcome.next ((if_pos rfl).trans ?_))⟩
          rw [eq, State.completeOffline_eq (seq .collided), (State.frameEnd_ends _ _).host, kept, bits, if_pos rfl, if_pos rfl,
            ← completed]
        | false =>
          obtain ⟨_, _, kept, _, _⟩ := retires .abandoned
          refine ⟨.abandoned, runs.trans (congrArg Host.Outcome.next ((if_neg Bool.false_ne_true).trans
            ((State.completeOffline_eq (s := (({ s with host := x } : State).frameEnd .abandoned).setCondition .abandoned)
              (seq .abandoned)).trans ?_)))⟩
          rw [State.setCondition_host, (State.frameEnd_ends _ _).host, State.setCondition_attention_eq, kept, bits,
            if_neg Bool.false_ne_true, if_neg (by decide), ← completed]
          rfl
      obtain ⟨torn, vacant, _, _, _⟩ := retires how
      have left := ({ s with host := x } : State).frameEnd_ends how
      exact ⟨_, runs, left.queue, rfl, nofun, nofun, fun _ => ⟨rfl, rfl, rfl, seq how, rfl, rfl, rfl⟩, torn.other, nofun,
        fun _ => ⟨congrArg Entry.state vacant, congrArg Entry.cells vacant⟩, torn.gone, torn.kept, torn.inFlight, torn.pin,
        torn.pool, torn.lease, torn.slots, rfl⟩

end Sys2Proof.Machine
end

section
/-! PROOFS. The decode of a good header: what it makes of the open sequence is determined, and what follows goes by the path
table (O39, O40). -/

namespace Sys2Proof.Machine

/-! ## What a header makes of the open sequence is determined (R104, R105) -/

theorem TableController.entries_ext {t u : TableController} (h : ∀ e : EntryNo, t.entry e = u.entry e) :
    t.entries = u.entries :=
  Vector.ext fun i hi => h ⟨i, hi⟩

/-- No held copy is pinned, or one is. -/
theorem State.pinned_cases (s : State) :
    (∀ p : Pin, s.table.pin = some p → p.kind = .current) ∨ ∃ p : Pin, s.table.pin = some p ∧ p.kind = .held := by
  by_cases held : ∃ p : Pin, s.table.pin = some p ∧ p.kind = .held
  · exact .inr held
  · refine .inl fun p pin => ?_
    cases kind : p.kind with
    | current => rfl
    | held => exact absurd ⟨p, pin, kind⟩ held

/-- What a released pin leaves of the entries, the pin and the free cells (R46). -/
theorem PinReleased.unique {s u v : State} (hu : PinReleased s u) (hv : PinReleased s v) :
    u.table.entries = v.table.entries ∧ u.table.pin = v.table.pin ∧ u.pool.free = v.pool.free := by
  obtain ⟨pinU, currentU, heldU⟩ := hu
  obtain ⟨pinV, currentV, heldV⟩ := hv
  rcases s.pinned_cases with current | ⟨p, pin, kind⟩
  · obtain ⟨entriesU, freeU⟩ := currentU current
    obtain ⟨entriesV, freeV⟩ := currentV current
    exact ⟨entriesU.trans entriesV.symm, pinU.trans pinV.symm, freeU.trans freeV.symm⟩
  · obtain ⟨ownU, otherU, freeU⟩ := heldU p pin kind
    obtain ⟨ownV, otherV, freeV⟩ := heldV p pin kind
    refine ⟨TableController.entries_ext fun d => ?_, pinU.trans pinV.symm, freeU.trans freeV.symm⟩
    by_cases hd : d = p.entry
    · subst hd
      exact ownU.trans ownV.symm
    · exact (otherU d hd).trans (otherV d hd).symm

theorem SequenceGivenUp.unique {s u v : State} (hu : SequenceGivenUp s u) (hv : SequenceGivenUp s v) :
    u.table.entries = v.table.entries ∧ u.table.pin = v.table.pin ∧ u.pool.free = v.pool.free := by
  obtain ⟨noneU, someU⟩ := hu
  obtain ⟨noneV, someV⟩ := hv
  cases seq : s.line.seq with
  | none =>
    obtain ⟨entriesU, pinU, freeU⟩ := noneU seq
    obtain ⟨entriesV, pinV, freeV⟩ := noneV seq
    exact ⟨entriesU.trans entriesV.symm, pinU.trans pinV.symm, freeU.trans freeV.symm⟩
  | some q =>
    obtain ⟨serveU, assembleU⟩ := someU q seq
    obtain ⟨serveV, assembleV⟩ := someV q seq
    cases kind : q.kind with
    | serve => exact (serveU kind).unique (serveV kind)
    | assemble =>
      obtain ⟨pinU, ownU, otherU, freeU⟩ := assembleU kind
      obtain ⟨pinV, ownV, otherV, freeV⟩ := assembleV kind
      refine ⟨TableController.entries_ext fun d => ?_, pinU.trans pinV.symm, freeU.trans freeV.symm⟩
      by_cases hd : d = q.entry
      · subst hd
        exact ownU.trans ownV.symm
      · exact (otherU d hd).trans (otherV d hd).symm

theorem SequenceClosed.unique {s u v : State} (hu : SequenceClosed s u) (hv : SequenceClosed s v) : u = v := by
  obtain ⟨givenU, eqU⟩ := hu
  obtain ⟨givenV, eqV⟩ := hv
  obtain ⟨entries, pin, free⟩ := givenU.unique givenV
  rw [eqU, eqV, entries, pin, free]

theorem MeetsSequence.unique {s b c : State} {h : Handle} {a : Action} {t : Tag} {x y : AttentionUnit}
    (hb : MeetsSequence s h a t b x) (hc : MeetsSequence s h a t c y) : b = c ∧ x = y := by
  rcases hb with ⟨q, seq, fetch, handle, next, rfl, rfl⟩ | ⟨other, closed, rfl⟩
  · rcases hc with ⟨r, seq', _, _, _, rfl, rfl⟩ | ⟨other, _⟩
    · obtain rfl : q = r := Option.some.inj (seq.symm.trans seq')
      exact ⟨rfl, rfl⟩
    · exact absurd ⟨fetch, handle, next⟩ (other q seq)
  · rcases hc with ⟨q, seq, fetch, handle, next, _⟩ | ⟨_, closed', rfl⟩
    · exact absurd ⟨fetch, handle, next⟩ (other q seq)
    · exact ⟨closed.unique closed', rfl⟩

theorem LineUnit.isContinuation_iff (l : LineUnit) (h : Handle) (a : Action) (t : Tag) :
    l.isContinuation h a t = true ↔
      ∃ q : SequenceContext, l.seq = some q ∧ a = .fetch ∧ q.handle = h ∧ q.next = t.toNat := by
  unfold LineUnit.isContinuation
  split
  · next none => simp [none]
  · next q seq =>
    rw [decide_eq_true_eq, seq]
    constructor
    · rintro ⟨fetch, handle, next⟩
      exact ⟨q, rfl, fetch, handle.symm, next.symm⟩
    · rintro ⟨r, same, fetch, handle, next⟩
      obtain rfl := Option.some.inj same
      exact ⟨fetch, handle.symm, next.symm⟩

/-! ## The decode, by its path (R105, R106) -/

/-- The one machine that the statements' words on the open sequence allow is the model's own (R105, step 1). -/
theorem MeetsSequence.base_eq {s base : State} {h : Handle} {a : Action} {t : Tag} {posted : AttentionUnit}
    (meets : MeetsSequence s h a t base posted) :
    base = s.meetSequence (s.line.isContinuation h a t) := (meets.unique (s.meetSequence_meets h a t)).1

section
variable {s base : State} {h : Handle} {a : Action} {t : Tag} {posted : AttentionUnit}
  (meets : MeetsSequence s h a t base posted)
include meets

theorem MeetsSequence.met_eq : s.met h a t = base.framed h a t := by
  rw [meets.base_eq]
  rfl

theorem MeetsSequence.lookup (g : Handle) : base.table.lookup g = s.table.lookup g := by
  have index : base.table.index = s.table.index := by
    rw [meets.base_eq]
    unfold State.meetSequence
    split
    · rfl
    · exact s.closeSequence_index
  simp only [TableController.lookup, index]

theorem MeetsSequence.found (e : EntryNo) : (base.entry e).found = (s.entry e).found := by
  rw [meets.base_eq]
  unfold State.meetSequence
  split
  · rfl
  · rw [State.closeSequence_entry]
    rfl

theorem MeetsSequence.line : base.line = { s.line with seq := base.line.seq } := by
  rw [meets.base_eq, State.meetSequence_line]

theorem MeetsSequence.attention : base.attention = s.attention := by
  rw [meets.base_eq]
  unfold State.meetSequence
  split
  · rfl
  · exact s.closeSequence_attention

/-- SEG_BROKEN, where the header closes a sequence, is what the statements say is posted (R105, R114). -/
theorem MeetsSequence.posts {r : State} (same : r.attention = s.attention) :
    r.postAt (s.brokenAt h a t) .segBroken = { r with attention := posted } := by
  have unit := (meets.unique (s.meetSequence_meets h a t)).2
  rw [unit, State.brokenAt]
  cases s.line.brokenBy (s.line.isContinuation h a t) with
  | none =>
    show r = { r with attention := s.attention }
    rw [← same]
  | some e => rw [← same]; rfl

theorem MeetsSequence.path_eq :
    choosePath ((s.met h a t).table.lookup h) (((s.met h a t).table.lookup h).map fun e => ((s.met h a t).entry e).found) a t
      (s.line.isContinuation h a t) =
    choosePath (s.table.lookup h) ((s.table.lookup h).map fun e => (s.entry e).found) a t (s.line.isContinuation h a t) := by
  have lookup : (s.met h a t).table.lookup h = s.table.lookup h := by
    rw [meets.met_eq]
    exact meets.lookup h
  have found : (fun e => ((s.met h a t).entry e).found) = fun e => (s.entry e).found := by
    funext e
    rw [meets.met_eq]
    exact meets.found e
  rw [lookup, found]

theorem MeetsSequence.framed_eq :
    base.framed h a t = { base with line := { base.line with
      frame := FrameContext.atHeader h a t (s.table.lookup h) ((s.table.lookup h).map fun e => (s.entry e).found) } } := by
  have found : (fun e => (base.entry e).found) = fun e => (s.entry e).found := funext meets.found
  rw [State.framed, meets.lookup, found]

/-- What the path chosen for the frame makes of the machine that has met its sequence, with SEG_BROKEN posted where it
closed one (R105, R106). -/
def State.followed (base : State) (posted : AttentionUnit) (h : Handle) (a : Action) (t : Tag) : Path → State
  | .skip none => ({ base.framed h a t with attention := posted } : State).enterQuiet .skipping
  | .skip (some (e, c)) => ({ base.framed h a t with attention := posted.post e c.set } : State).enterQuiet .skipping
  | .answer e n => ({ (base.framed h a t).startFrame .space e n with attention := posted } : State).enterSpace e a t
  | .receive e n => ({ (base.framed h a t).startFrame .receiving e n with attention := posted } : State).awaitResponse

/-- The decode of a good header, in the terms of the statements: the path is chosen on what the lookup found. -/
theorem MeetsSequence.decode :
    s.decodeAction h a t = base.followed posted h a t
      (choosePath (s.table.lookup h) ((s.table.lookup h).map fun e => (s.entry e).found) a t
        (s.line.isContinuation h a t)) := by
  have eq : s.decodeAction h a t =
      match choosePath ((s.met h a t).table.lookup h)
        (((s.met h a t).table.lookup h).map fun e => ((s.met h a t).entry e).found) a t (s.line.isContinuation h a t) with
      | .skip none => ((s.met h a t).postAt (s.brokenAt h a t) .segBroken).enterQuiet .skipping
      | .skip (some (e, c)) =>
        (((s.met h a t).postAt (s.brokenAt h a t) .segBroken).post e c).enterQuiet .skipping
      | .answer e n =>
        (((s.met h a t).startFrame .space e n).postAt (s.brokenAt h a t) .segBroken).enterSpace e a t
      | .receive e n =>
        (((s.met h a t).startFrame .receiving e n).postAt (s.brokenAt h a t) .segBroken).awaitResponse := rfl
  have framed := meets.posts (r := base.framed h a t) meets.attention
  rw [eq, meets.path_eq, meets.met_eq]
  cases path : choosePath (s.table.lookup h) ((s.table.lookup h).map fun e => (s.entry e).found) a t
      (s.line.isContinuation h a t) with
  | skip cause =>
    cases cause with
    | none =>
      dsimp only
      rw [framed, State.followed]
    | some posting =>
      dsimp only
      rw [framed, State.followed, State.post]
  | answer e n =>
    dsimp only
    rw [meets.posts (r := (base.framed h a t).startFrame .space e n) meets.attention, State.followed]
  | receive e n =>
    dsimp only
    rw [meets.posts (r := (base.framed h a t).startFrame .receiving e n) meets.attention, State.followed]

/-- A good header of an entry that the lookup names, by the path its fields choose. -/
theorem MeetsSequence.exec_eq (awaits : s.awaitsCheck h a.code t) {p : Path}
    (path : choosePath (s.table.lookup h) ((s.table.lookup h).map fun e => (s.entry e).found) a t
      (s.line.isContinuation h a t) = p) :
    exec (.headerCharacter s.line.check false) s = .next (base.followed posted h a t p) := by
  rw [State.headerCharacter_of_awaitsCheck awaits (headerBytesReadBack.1 h a.code t), meets.decode, path]

end

/-! ## The rows of the path table (R106) -/

/-- n of a FETCH answer or a capture: the segment's bytes, the tag byte and the check (R99). -/
theorem segmentSize_add_two (length i : Nat) :
    segmentSize length i + 2 =
      if i + 1 < segmentCount length then 18 else length - 16 * (segmentCount length - 1) + 2 := by
  unfold segmentSize
  split <;> rfl

section
variable {e : EntryNo} {x : Found} {a : Action} {t : Tag} {continuation : Bool}

theorem EntryState.met_of_working {y : EntryState} (working : y.working = true) :
    ¬ (y ≠ .draft ∧ y ≠ .live ∧ y ≠ .stale) := by
  cases y <;> simp_all [EntryState.working]

variable (working : x.state.working = true)
include working

theorem choosePath_badSegment (beyond : segmentCount x.length ≤ t.toNat) :
    choosePath (some e) (some x) .fetch t continuation = .skip (some (e, .badSegment)) := by
  cases role : x.role <;> simp only [choosePath, if_neg (EntryState.met_of_working working), role, if_pos beyond]

theorem choosePath_noData (within : t.toNat < segmentCount x.length) (role : x.role = .source) (draft : x.state = .draft) :
    choosePath (some e) (some x) .fetch t continuation = .skip none := by
  simp only [choosePath, if_neg (EntryState.met_of_working working), role, if_neg (Nat.not_le.2 within), if_pos draft]

theorem choosePath_fetch (within : t.toNat < segmentCount x.length) (role : x.role = .source) (data : x.state ≠ .draft) :
    choosePath (some e) (some x) .fetch t continuation = .answer e (segmentSize x.length t.toNat + 2) := by
  simp only [choosePath, if_neg (EntryState.met_of_working working), role, if_neg (Nat.not_le.2 within), if_neg data]

theorem choosePath_capture (within : t.toNat < segmentCount x.length) (role : x.role = .mirror)
    (first : t = 0#4 ∨ continuation = true) :
    choosePath (some e) (some x) .fetch t continuation = .receive e (segmentSize x.length t.toNat + 2) := by
  simp only [choosePath, if_neg (EntryState.met_of_working working), role, if_neg (Nat.not_le.2 within), if_pos first]

theorem choosePath_uncontinued (within : t.toNat < segmentCount x.length) (role : x.role = .mirror)
    (later : ¬ (t = 0#4 ∨ continuation = true)) :
    choosePath (some e) (some x) .fetch t continuation = .skip none := by
  simp only [choosePath, if_neg (EntryState.met_of_working working), role, if_neg (Nat.not_le.2 within), if_neg later]

theorem choosePath_store (role : x.role = .source) :
    choosePath (some e) (some x) .store t continuation =
      if x.length ≤ 16 then .receive e (x.length + 1) else .skip (some (e, .denied)) := by
  simp only [choosePath, if_neg (EntryState.met_of_working working), role]

theorem choosePath_mirror (role : x.role = .mirror) (notFetch : a ≠ .fetch) :
    choosePath (some e) (some x) a t continuation = .skip none := by
  cases a <;> simp_all [choosePath, EntryState.met_of_working working]

/-- A CLAIM, a RELEASE and a RETIRE of a SOURCE are answered with a code, a PROBE with four bytes; then the check. -/
theorem choosePath_answer (role : x.role = .source) {n : Nat}
    (length : n = 2 ∧ (a = .claim ∨ a = .release ∨ a = .retire) ∨ n = 5 ∧ a = .probe) :
    choosePath (some e) (some x) a t continuation = .answer e n := by
  rcases length with ⟨rfl, rfl | rfl | rfl⟩ | ⟨rfl, rfl⟩ <;>
    simp only [choosePath, if_neg (EntryState.met_of_working working), role]

end

/-! ## What each path makes of the machine -/

section
variable {s base : State} {h : Handle} {a : Action} {t : Tag} {posted : AttentionUnit}
  (meets : MeetsSequence s h a t base posted)
include meets

/-- The machine after a header that is skipped, with no idle expiry to settle (R97, R101). -/
theorem MeetsSequence.skipped (pending : s.line.idlePending = false) (after : AttentionUnit) :
    ({ base.framed h a t with attention := after } : State).enterQuiet .skipping = { base with
      attention := after
      line := { base.line with
        phase := .skipping, assembling := false, edge := false, breakSeen := false, runBefore := false
        collided := false, txd := .released
        frame := FrameContext.atHeader h a t (s.table.lookup h) ((s.table.lookup h).map fun e => (s.entry e).found) } } := by
  rw [meets.framed_eq, State.enterQuiet_of_not_pending]
  exact (congrArg LineUnit.idlePending meets.line).trans pending

theorem MeetsSequence.started {e : EntryNo} (entry : s.table.lookup h = some e) (p : Phase) (n : Nat)
    (after : AttentionUnit) :
    ({ (base.framed h a t).startFrame p e n with attention := after } : State) = { base with
      table := { base.table with inFlight := some e }
      attention := after
      line := { base.line with
        phase := p, assembling := false
        frame := { handle := some h, action := some a, tag := some t, entry := some e, found := some (base.entry e).found
                   segment := if a = .fetch then some t else none, n := some n, deadline := some (12 * n + 16) } } } := by
  rw [State.framed, meets.lookup, entry]
  rfl

end

/-- Settles O39, by the rows of the path table that skip. -/
theorem skippedHeadersFollowThePathTable : Obligations.SkippedHeadersFollowThePathTable := by
  intro s base h a t posted after awaits pending meets rows
  have skips {p : Path} (path : choosePath (s.table.lookup h) ((s.table.lookup h).map fun e => (s.entry e).found) a t
      (s.line.isContinuation h a t) = p)
      (follows : base.followed posted h a t p = ({ base.framed h a t with attention := after } : State).enterQuiet .skipping) :=
    (meets.exec_eq awaits path).trans (congrArg Host.Outcome.next (follows.trans (meets.skipped pending after)))
  rcases rows with ⟨unknown, rfl⟩ | ⟨e, entry, working, row⟩
  · exact skips (p := .skip none) (by rw [unknown]; rfl) rfl
  · have quiet (path : choosePath (some e) (some (s.entry e).found) a t (s.line.isContinuation h a t) = .skip none)
        (same : after = posted) := skips (p := .skip none) (by rw [entry]; exact path) (by rw [same]; rfl)
    have posting {c : Cause} (path : choosePath (some e) (some (s.entry e).found) a t (s.line.isContinuation h a t) =
        .skip (some (e, c))) (posts : after = posted.post e c.set) :=
      skips (p := .skip (some (e, c))) (by rw [entry]; exact path) (by rw [posts]; rfl)
    rcases row with ⟨rfl, beyond, posts⟩ | ⟨rfl, within, source, draft, same⟩ | ⟨rfl, within, mirror, later, other, same⟩ |
      ⟨rfl, source, long, posts⟩ | ⟨notFetch, mirror, same⟩
    · exact posting (c := .badSegment) (choosePath_badSegment (x := (s.entry e).found) working beyond) posts
    · exact quiet (choosePath_noData (x := (s.entry e).found) working within source draft) same
    · refine quiet (choosePath_uncontinued (x := (s.entry e).found) working within mirror ?_) same
      rw [LineUnit.isContinuation_iff]
      rintro (zero | ⟨q, seq, _, handle, next⟩)
      · exact later zero
      · exact other q seq ⟨handle, next⟩
    · refine posting (c := .denied) ?_ posts
      rw [choosePath_store (x := (s.entry e).found) working source]
      exact if_neg (Nat.not_le.2 long)
    · exact quiet (choosePath_mirror (x := (s.entry e).found) working mirror notFetch) same

/-- Settles O40, by the rows of the path table that receive. -/
theorem receivedHeadersStartAReception : Obligations.ReceivedHeadersStartAReception := by
  intro s base h a t e n posted awaits entry working meets rows
  have receives (path : choosePath (some e) (some (s.entry e).found) a t (s.line.isContinuation h a t) = .receive e n) :
      exec (.headerCharacter s.line.check false) s = .next (base.followed posted h a t (.receive e n)) :=
    meets.exec_eq awaits (by rw [entry]; exact path)
  have lands := meets.found e
  rw [receives, State.followed, meets.started entry, lands]
  · rfl
  rcases rows with ⟨rfl, source, short, rfl⟩ | ⟨rfl, mirror, within, rfl, first⟩
  · rw [choosePath_store (x := (s.entry e).found) working source]
    exact if_pos short
  · refine (choosePath_capture (x := (s.entry e).found) working within mirror (first.imp_right ?_)).trans
      (congrArg (Path.receive e) (segmentSize_add_two _ _))
    rw [LineUnit.isContinuation_iff]
    rintro ⟨q, seq, handle, next⟩
    exact ⟨q, seq, rfl, handle, next⟩

end Sys2Proof.Machine
end

section
/-! PROOFS. The request for the answer, by its action: what its statement says is what the block that takes it does (O41 to
O44). -/

namespace Sys2Proof.Machine

/-! ## The decision of a CLAIM, by the row of R69 -/

section
variable {c : ClaimTable} {e : EntryNo} {t : Tag}

theorem ClaimTable.decideClaim_notPermitted {ok : Bool} (barred : ok = false ∨ t = 0#4) :
    c.decideClaim ok e t = (.notPermitted, some .denied, c) := if_pos barred

variable (tagged : t ≠ 0#4)
include tagged

/-- A CLAIM that R69's first row does not refuse. -/
theorem not_barred : ¬ (true = false ∨ t = 0#4) := by simp [tagged]

theorem ClaimTable.decideClaim_heldHost {k : SlotNo} (named : c.slotOf e = some k) (slot : c.slot k = .heldHost e) :
    c.decideClaim true e t = (.heldByOther, some .denied, c) := by
  simp only [ClaimTable.decideClaim, if_neg (not_barred tagged), named, slot]

theorem ClaimTable.decideClaim_heldByOther {k : SlotNo} {u : Tag} {lease : Nat} (named : c.slotOf e = some k)
    (slot : c.slot k = .heldLine e u lease) (other : u ≠ t) :
    c.decideClaim true e t = (.heldByOther, some .denied, c) := by
  simp only [ClaimTable.decideClaim, if_neg (not_barred tagged), named, slot, if_neg other]

theorem ClaimTable.decideClaim_renewed {k : SlotNo} {lease : Nat} (named : c.slotOf e = some k)
    (slot : c.slot k = .heldLine e t lease) :
    c.decideClaim true e t = (.renewed, none, c.setSlot k (.reserved e t lease true)) := by
  simp only [ClaimTable.decideClaim, if_neg (not_barred tagged), named, slot, if_true]

theorem ClaimTable.decideClaim_granted {k : SlotNo} (unnamed : c.slotOf e = none) (free : c.firstFree = some k) :
    c.decideClaim true e t = (.granted, none, c.setSlot k (.reserved e t 0 false)) := by
  simp only [ClaimTable.decideClaim, if_neg (not_barred tagged), unnamed, free]

theorem ClaimTable.decideClaim_full (unnamed : c.slotOf e = none) (full : c.firstFree = none) :
    c.decideClaim true e t = (.claimsFull, none, c) := by
  simp only [ClaimTable.decideClaim, if_neg (not_barred tagged), unnamed, full]

end

/-! ## The request of each action, taken -/

section
variable {s taken : State} {e : EntryNo} {t : Tag}

/-- The machine with the request taken and a code kept. -/
def State.coded (s : State) (code : AnswerCode) (claims : ClaimTable) (after : AttentionUnit) : State :=
  { s with
    claims := claims
    attention := after
    line := { s.line with frame := { s.line.frame with asking := false, code := some code } } }

theorem State.decideClaim_eq (s : State) (e : EntryNo) (t : Tag) :
    (s.setAsking false).decideClaim e t =
      s.coded (s.claims.decideClaim (s.entry e).permits.claimOk e t).1
        (s.claims.decideClaim (s.entry e).permits.claimOk e t).2.2
        ((s.claims.decideClaim (s.entry e).permits.claimOk e t).2.1.elim s.attention fun c =>
          s.attention.post e c.set) := by
  have same : (s.setAsking false).claims.decideClaim ((s.setAsking false).entry e).permits.claimOk e t =
      s.claims.decideClaim (s.entry e).permits.claimOk e t := rfl
  unfold State.decideClaim
  rw [same]
  obtain ⟨code, cause, claims⟩ := s.claims.decideClaim (s.entry e).permits.claimOk e t
  cases cause <;> rfl

/-- No two slots name the entry (R67). -/
def ClaimTable.OneSlot (c : ClaimTable) (e : EntryNo) : Prop :=
  ∀ j k : SlotNo, (c.slot j).names e = true → (c.slot k).names e = true → j = k

theorem ClaimDecided.answers (unique : s.claims.OneSlot e) (decided : ClaimDecided s e t taken) :
    (s.setAsking false).answerRequest e .claim t = taken := by
  have named {k : SlotNo} {x : Slot} (slot : s.claims.slot k = x) (names : x.names e = true) :
      s.claims.slotOf e = some k := (ClaimTable.slotOf_eq_some unique k).2 (slot ▸ names)
  refine (s.decideClaim_eq e t).trans ?_
  obtain ⟨code, slots, after, rfl, ⟨barred, rfl, rfl, rfl⟩ | ⟨permitted, tagged, row⟩⟩ := decided
  · rw [ClaimTable.decideClaim_notPermitted barred]
    rfl
  · rw [permitted]
    rcases row with ⟨k, slot, rfl, rfl, rfl⟩ | ⟨k, u, lease, slot, other, rfl, rfl, rfl⟩ | ⟨k, lease, slot, rfl, rfl, rfl⟩ |
      ⟨unnamed, rfl, ⟨k, free, least, rfl, rfl⟩ | ⟨full, rfl, rfl⟩⟩
    · rw [ClaimTable.decideClaim_heldHost tagged (named slot (decide_eq_true rfl)) slot]
      rfl
    · rw [ClaimTable.decideClaim_heldByOther tagged (named slot (decide_eq_true rfl)) slot other]
      rfl
    · rw [ClaimTable.decideClaim_renewed tagged (named slot (decide_eq_true rfl)) slot]
      rfl
    · rw [ClaimTable.decideClaim_granted tagged ((ClaimTable.slotOf_eq_none _ _).2 unnamed)
        ((ClaimTable.firstFree_eq_some _ k).2 ⟨free, least⟩)]
      rfl
    · rw [ClaimTable.decideClaim_full tagged ((ClaimTable.slotOf_eq_none _ _).2 unnamed)
        ((ClaimTable.firstFree_eq_none _).2 full)]
      rfl

/-- The verdict on a RELEASE (R75). -/
theorem ClaimTable.decideRelease_notHolder {c : ClaimTable}
    (unique : c.OneSlot e)
    (none : ∀ (k : SlotNo) (lease : Nat), c.slot k ≠ .heldLine e t lease) : c.decideRelease e t = .notHolder := by
  by_cases claimed : ∃ k : SlotNo, (c.slot k).names e = true
  · obtain ⟨k, names⟩ := claimed
    rw [ClaimTable.decideRelease, ClaimTable.claimOf_eq unique names]
    rcases Slot.names_cases names with ⟨u, lease, renewal, slot⟩ | ⟨u, lease, slot⟩ | slot
    · rw [slot]
    · have other : u ≠ t := fun same => none k lease (same ▸ slot)
      simp only [slot, if_neg other]
    · rw [slot]
  · rw [ClaimTable.decideRelease, ClaimTable.claimOf_free fun k => by simpa using fun names => claimed ⟨k, names⟩]

theorem ReleaseDecided.answers (unique : s.claims.OneSlot e)
    (decided : ReleaseDecided s e t taken) : (s.setAsking false).answerRequest e .release t = taken := by
  have answer : (s.setAsking false).answerRequest e .release t =
      s.coded (s.claims.decideRelease e t) s.claims s.attention := rfl
  rw [answer]
  obtain ⟨code, rfl, ⟨⟨k, lease, slot⟩, rfl⟩ | ⟨none, rfl⟩⟩ := decided
  · have released : s.claims.decideRelease e t = .released := by
      rw [ClaimTable.decideRelease, ClaimTable.claimOf_eq unique (k := k) (slot ▸ decide_eq_true rfl), slot]
      exact if_pos rfl
    rw [released]
    rfl
  · rw [ClaimTable.decideRelease_notHolder unique none]
    rfl

theorem ProbeRead.answers (unique : s.claims.OneSlot e)
    (read : ProbeRead s e taken) : (s.setAsking false).answerRequest e .probe t = taken := by
  obtain ⟨state, stateByte, claim, rfl, rfl, states, claims⟩ := read
  have code : (s.entry e).state.code = stateByte := by
    rcases states with ⟨state, rfl⟩ | ⟨state, rfl⟩ | ⟨state, rfl⟩ | ⟨state, rfl⟩ <;> rw [state] <;> rfl
  have byte : s.claims.claimByte e = claim := by
    rcases claims with ⟨unnamed, rfl⟩ | ⟨⟨k, slot⟩, rfl⟩ | ⟨k, u, lease, slot, rfl⟩
    · rw [ClaimTable.claimByte, ClaimTable.claimOf_free unnamed]
    · rw [ClaimTable.claimByte, ClaimTable.claimOf_eq unique (k := k) (slot ▸ decide_eq_true rfl), slot]
    · rw [ClaimTable.claimByte, ClaimTable.claimOf_eq unique (k := k) (slot ▸ decide_eq_true rfl), slot, BitVec.ofNat_add,
        BitVec.ofNat_toNat]
  have version : BitVec.ofNat 8 (s.entry e).version.toNat = (s.entry e).version.zeroExtend 8 := BitVec.ofNat_toNat _ _
  rw [version, ← code, ← byte]
  rfl

/-- The tag byte in the terms of the statements (R62, R83, R179). -/
theorem tagByte_eq (claimed stale : Bool) (version : Version) :
    tagByte claimed stale version =
      BitVec.ofNat 8 (version.toNat + (if stale = true then 64 else 0) + (if claimed = true then 128 else 0)) := by
  apply BitVec.eq_of_toNat_eq
  have low := version.isLt
  rw [tagByte, BitVec.toNat_append, ← Nat.shiftLeft_add_eq_or_of_lt low, BitVec.toNat_append]
  cases claimed <;> cases stale <;> simp <;> omega

/-- The tag byte of a FETCH answer, where the claim is read off the slots (R108). -/
theorem State.fetchReply_eq (s : State) (e : EntryNo) :
    s.fetchReply e = [BitVec.ofNat 8 ((s.pinnedVersion e).toNat + (if (s.entry e).state = .stale then 64 else 0) +
      (if ∃ k : SlotNo, (s.claims.slot k).names e = true then 128 else 0))] := by
  have claimed : s.claims.claimed e = true ↔ ∃ k : SlotNo, (s.claims.slot k).names e = true := by
    rw [ClaimTable.claimed, Option.isSome_iff_ne_none, ne_eq, ClaimTable.slotOf_eq_none]
    simp
  rw [State.fetchReply, tagByte_eq]
  simp only [decide_eq_true_eq, claimed]

theorem FetchTagged.answers (tagged : FetchTagged s e taken) : (s.setAsking false).answerRequest e .fetch t = taken := by
  obtain ⟨pin, version, rfl, source⟩ := tagged
  have placed : (s.setAsking false).placePin e (s.setAsking false).line.seq.isSome = (s.setAsking false).setPin (some pin) := by
    rcases source with ⟨seq, rfl, _⟩ | ⟨p, seq, held, _, rfl, _⟩
    · have closed : (s.setAsking false).line.seq.isSome = false := by
        show s.line.seq.isSome = false
        rw [seq]
        rfl
      rw [closed, State.placePin]
      split <;> rfl
    · have pinned : (s.setAsking false).table.pin = some p := held
      simp only [State.placePin, pinned]
      exact if_pos seq
  have versions : ((s.setAsking false).setPin (some pin)).pinnedVersion e = version := by
    rcases source with ⟨_, rfl, rfl⟩ | ⟨p, _, _, _, rfl, ⟨kind, rfl⟩ | ⟨kind, copy, held, rfl⟩⟩
    · rfl
    · obtain ⟨d, pinKind, owner⟩ := p
      obtain rfl : pinKind = .current := kind
      rfl
    · obtain ⟨d, pinKind, owner⟩ := p
      obtain rfl : pinKind = .held := kind
      have copies : (((s.setAsking false).setPin (some ⟨d, .held, .frame⟩)).entry e).held = some copy := held
      simp only [State.pinnedVersion, State.setPin] at copies ⊢
      rw [copies]
  show ((s.setAsking false).placePin e (s.setAsking false).line.seq.isSome).setReply
    (((s.setAsking false).placePin e (s.setAsking false).line.seq.isSome).fetchReply e) = _
  rw [placed, State.fetchReply_eq, versions]
  rfl

end

end Sys2Proof.Machine
end

section
/-! PROOFS. Headers that are answered, and the answer's beginning (O41 to O44). -/

namespace Sys2Proof.Machine

/-! ## A waiting request is taken (R66, R98, R105) -/

/-- A frame in SPACE whose request for the answer is sent and not yet taken (R98). -/
structure State.Asks (s : State) (a : Action) (e : EntryNo) (t : Tag) : Prop where
  phase : s.line.phase = .space
  asking : s.line.frame.asking = true
  entry : s.line.frame.entry = some e
  action : s.line.frame.action = some a
  tag : s.line.frame.tag = some t

section
variable {s taken : State} {a : Action} {e : EntryNo} {t : Tag}

theorem State.Asks.of_line {u : State} (asks : s.Asks a e t) (line : u.line = s.line) : u.Asks a e t :=
  ⟨line ▸ asks.phase, line ▸ asks.asking, line ▸ asks.entry, line ▸ asks.action, line ▸ asks.tag⟩

theorem State.Asks.serve (asks : s.Asks a e t) : s.serveRequest = (s.setAsking false).answerRequest e a t := by
  simp only [State.serveRequest, asks.phase, asks.asking, asks.entry, asks.action, asks.tag, and_self, if_true]

theorem RequestTaken.answers (unique : s.claims.OneSlot e) (request : RequestTaken s a e t taken) :
    (s.setAsking false).answerRequest e a t = taken := by
  rcases request with ⟨rfl, decided⟩ | ⟨rfl, decided⟩ | ⟨rfl, read⟩ | ⟨rfl, tagged⟩
  · exact decided.answers unique
  · exact decided.answers unique
  · exact read.answers unique
  · exact tagged.answers

/-- What the request does not read, and leaves as it is, may stand as it will: the Host Port and the count (log 10). -/
theorem State.answerRequest_beside (s : State) (x : HostPort) (n : Nat) (e : EntryNo) (a : Action) (t : Tag) :
    (({ s with host := x, requestCount := n } : State).setAsking false).answerRequest e a t =
      { (s.setAsking false).answerRequest e a t with host := x, requestCount := n } := by
  cases a with
  | fetch =>
    have placed : ∀ b : Bool, (({ s with host := x, requestCount := n } : State).setAsking false).placePin e b =
        { (s.setAsking false).placePin e b with host := x, requestCount := n } := fun b => by
      simp only [State.placePin, State.setAsking]
      cases s.table.pin <;> cases b <;> rfl
    simp only [State.answerRequest, placed]
    rfl
  | claim => exact (State.decideClaim_eq _ e t).trans (congrArg (fun u : State => { u with host := x, requestCount := n })
      (s.decideClaim_eq e t).symm)
  | probe => rfl
  | release => rfl
  | retire => rfl
  | store => rfl

theorem State.answerRequest_host (s : State) (e : EntryNo) (a : Action) (t : Tag) :
    ((s.setAsking false).answerRequest e a t).host = s.host := by
  have kept := congrArg State.host (s.answerRequest_beside s.host s.requestCount e a t)
  exact kept

/-! ## A header that is answered (R105) -/

/-- An action other than RETIRE sends its request for the answer (R105, R108, R118 to R120). -/
theorem State.enterSpace_sends (sends : a ≠ .retire) : s.enterSpace e a t = s.sendRequest := by
  cases a with
  | retire => exact absurd rfl sends
  | fetch | store | claim | release | probe => rfl

theorem State.Asks.send_alone (asks : (s.setAsking true).Asks a e t) (alone : Work.isHanded s.host.work = false) :
    s.sendRequest = (s.setAsking false).answerRequest e a t := by
  rw [State.sendRequest, if_neg (by simp [alone])]
  exact asks.serve

theorem State.Asks.send_drawn (asks : (s.setAsking true).Asks a e t) (handed : Work.isHanded s.host.work = true) :
    s.sendRequest =
      { (if Config.requestWaits s.requestCount = true then s.setAsking true
          else (s.setAsking false).answerRequest e a t) with requestCount := s.requestCount + 1 } := by
  rw [State.sendRequest, if_pos handed]
  dsimp only
  split
  · rfl
  · have counted : ({ s.setAsking true with requestCount := s.requestCount + 1 } : State).Asks a e t := asks.of_line rfl
    rw [counted.serve]
    refine (s.answerRequest_beside s.host (s.requestCount + 1) e a t).trans ?_
    rw [s.answerRequest_host]

end

section
variable {s base taken : State} {h : Handle} {a : Action} {t : Tag} {e : EntryNo} {n : Nat} {posted : AttentionUnit}
  (meets : MeetsSequence s h a t base posted)
include meets

theorem MeetsSequence.claims : base.claims = s.claims := by
  rcases meets with ⟨q, _, _, _, _, rfl, _⟩ | ⟨_, ⟨_, closed⟩, _⟩
  · rfl
  · rw [closed]

theorem MeetsSequence.host : base.host = s.host := by
  rcases meets with ⟨q, _, _, _, _, rfl, _⟩ | ⟨_, ⟨_, closed⟩, _⟩
  · rfl
  · rw [closed]

theorem MeetsSequence.requestCount : base.requestCount = s.requestCount := by
  rcases meets with ⟨q, _, _, _, _, rfl, _⟩ | ⟨_, ⟨_, closed⟩, _⟩
  · rfl
  · rw [closed]

theorem MeetsSequence.permits : (base.entry e).permits = (s.entry e).permits := by
  rw [meets.base_eq, State.meetSequence]
  split
  · rfl
  · rw [State.closeSequence_entry]

/-- A header whose path is to answer enters SPACE, with nothing asked yet (R97, R99). -/
theorem MeetsSequence.enters (awaits : s.awaitsCheck h a.code t) (entry : s.table.lookup h = some e)
    (path : choosePath (some e) (some (s.entry e).found) a t (s.line.isContinuation h a t) = .answer e n) :
    exec (.headerCharacter s.line.check false) s =
      .next ((base.enteredSpace posted h a t e n false).enterSpace e a t) := by
  rw [meets.exec_eq (p := .answer e n) awaits (by rw [entry]; exact path), State.followed, meets.started entry]
  rfl

theorem MeetsSequence.answersHeader (awaits : s.awaitsCheck h a.code t) (entry : s.table.lookup h = some e)
    (path : choosePath (some e) (some (s.entry e).found) a t (s.line.isContinuation h a t) = .answer e n)
    (sends : a ≠ .retire)
    (served : ((base.enteredSpace posted h a t e n true).setAsking false).answerRequest e a t = taken) :
    AnswersHeader s (base.enteredSpace posted h a t e n true) taken := by
  have asks : ((base.enteredSpace posted h a t e n false).setAsking true).Asks a e t := ⟨rfl, rfl, rfl, rfl, rfl⟩
  have runs := meets.enters awaits entry path
  rw [State.enterSpace_sends sends] at runs
  have answered : ((base.enteredSpace posted h a t e n false).setAsking false).answerRequest e a t = taken := served
  constructor
  · intro alone
    rw [runs, asks.send_alone ((congrArg (fun x : HostPort => Work.isHanded x.work) meets.host).trans alone), answered]
  · intro handed
    rw [runs, asks.send_drawn ((congrArg (fun x : HostPort => Work.isHanded x.work) meets.host).trans handed), answered]
    have count : (base.enteredSpace posted h a t e n false).requestCount = s.requestCount := meets.requestCount
    rw [count]
    rfl

/-- No two slots name an entry where the header has been decoded (R67). -/
theorem MeetsSequence.oneSlot (claims : ClaimsOk s) : (base.enteredSpace posted h a t e n true).claims.OneSlot e := by
  show base.claims.OneSlot e
  rw [meets.claims]
  exact claims.unique e

end

/-- Settles O41, by the rows of R69. -/
theorem lineClaimIsDecidedAtItsHeader : Obligations.LineClaimIsDecidedAtItsHeader := by
  intro s base taken h t e posted awaits entry working source meets claims decided
  exact meets.answersHeader awaits entry
    (choosePath_answer (x := (s.entry e).found) working source (.inl ⟨rfl, .inl rfl⟩)) nofun
    (decided.answers (meets.oneSlot claims))

/-- The code of a line RETIRE is decided within the decode, with DENIED for a refusal (R105, R121). -/
theorem State.decideRetire_eq {s : State} {e : EntryNo} {t : Tag} {code : AnswerCode} {after : AttentionUnit}
    (row : (s.entry e).permits.retireOk = true ∧ s.claims.blocksLine e t = false ∧ code = .retired ∧ after = s.attention ∨
      ((s.entry e).permits.retireOk = false ∨ s.claims.blocksLine e t = true) ∧ code = .refused ∧
        after = s.attention.post e (1#13 <<< 9)) :
    s.decideRetire e t = { s.setCode code with attention := after } := by
  rcases row with ⟨permitted, unblocked, rfl, rfl⟩ | ⟨barred, rfl, rfl⟩
  · have retired : s.retireCode e t = .retired := if_pos ⟨permitted, unblocked⟩
    rw [State.decideRetire, retired]
    exact if_neg nofun
  · have refused : s.retireCode e t = .refused := if_neg fun ⟨permitted, unblocked⟩ => by simp_all
    rw [State.decideRetire, refused]
    exact if_pos rfl

/-- Settles O42, by the three actions. -/
theorem releaseRetireAndProbeHeaders : Obligations.ReleaseRetireAndProbeHeaders := by
  intro s base h t e a posted awaits entry working source meets claims
  refine ⟨fun taken action decided => ?_, fun taken action read => ?_, fun code after u action made row => ?_⟩
  · subst action
    exact meets.answersHeader awaits entry
      (choosePath_answer (x := (s.entry e).found) working source (.inl ⟨rfl, .inr (.inl rfl)⟩)) nofun
      (decided.answers (meets.oneSlot claims))
  · subst action
    exact meets.answersHeader awaits entry
      (choosePath_answer (x := (s.entry e).found) working source (.inr ⟨rfl, rfl⟩)) nofun
      (read.answers (meets.oneSlot claims))
  · subst action made
    rw [meets.enters awaits entry
      (choosePath_answer (x := (s.entry e).found) working source (.inl ⟨rfl, .inr (.inr rfl)⟩))]
    refine congrArg Host.Outcome.next (State.decideRetire_eq (after := after) ?_)
    have permits : ((base.enteredSpace posted h .retire t e 2 false).entry e).permits = (s.entry e).permits := meets.permits
    have slots : (base.enteredSpace posted h .retire t e 2 false).claims = s.claims := meets.claims
    rw [permits, slots]
    exact row

/-- Settles O43, by the path table's row of a SOURCE in LIVE or STALE. -/
theorem fetchHeaderPinsAndTags : Obligations.FetchHeaderPinsAndTags := by
  intro s base taken h t e n posted awaits entry state source within length meets tagged
  have working : (s.entry e).found.state.working = true := by
    show (s.entry e).state.working = true
    rcases state with live | stale
    · rw [live]; rfl
    · rw [stale]; rfl
  have data : (s.entry e).found.state ≠ .draft := by
    show (s.entry e).state ≠ .draft
    rcases state with live | stale
    · rw [live]; nofun
    · rw [stale]; nofun
  refine meets.answersHeader awaits entry ?_ nofun tagged.answers
  rw [length]
  exact (choosePath_fetch working within source data).trans (congrArg (Path.answer e) (segmentSize_add_two _ _))

end Sys2Proof.Machine
end

section
/-! PROOFS. The end of the response space: the answer begins, and a request that has waited is taken first (O44). -/

namespace Sys2Proof.Machine

/-! ## The characters of the answer (R109, R118 to R120) -/

theorem exec_responseSpaceEnd {s : State} (mode : s.line.mode = .listen) (phase : s.line.phase = .space) :
    exec .responseSpaceEnd s = .next { s.serveRequest with line := { s.serveRequest.line with
      phase := .answering, collided := false, txd := .answer
      frame := { s.serveRequest.line.frame with answer := s.serveRequest.answerCharacters } } } :=
  congrArg Host.Outcome.next (if_pos ⟨mode, phase⟩)

theorem State.pinnedCells_eq {s : State} {e : EntryNo} {p : Pin} {copy : List CellNo} (pin : s.table.pin = some p)
    (copies : (p.kind = .current ∧ (s.entry e).current = some copy) ∨
      (p.kind = .held ∧ ∃ version : Version, (s.entry e).held = some ⟨copy, version⟩)) : s.pinnedCells e = copy := by
  obtain ⟨d, kind, owner⟩ := p
  rcases copies with ⟨rfl, current⟩ | ⟨rfl, version, held⟩
  · simp only [State.pinnedCells, pin, current, Option.getD_some]
  · simp only [State.pinnedCells, pin, held]

section
variable {s : State} {e : EntryNo} {a : Action} (entry : s.line.frame.entry = some e) (action : s.line.frame.action = some a)
include entry action

theorem State.answerCharacters_fetch (fetch : a = .fetch) {segment : Tag} (framed : s.line.frame.segment = some segment) :
    s.answerCharacters = withCheck s.line.check
      (s.pool.readRecord (s.pinnedCells e) (16 * segment.toNat) ((s.entry e).segmentLength segment.toNat) ++
        s.line.frame.reply) := by
  subst fetch
  simp only [State.answerCharacters, entry, action, framed, Option.getD_some]

theorem State.answerCharacters_probe (probe : a = .probe) :
    s.answerCharacters = withCheck s.line.check s.line.frame.reply := by
  subst probe
  simp only [State.answerCharacters, entry, action]

theorem State.answerCharacters_code (fetch : a ≠ .fetch) (probe : a ≠ .probe) {code : AnswerCode}
    (decided : s.line.frame.code = some code) : s.answerCharacters = withCheck s.line.check [code.code] := by
  cases a <;> simp_all [State.answerCharacters]

end

/-! ## Whatever ends the frame in SPACE takes the waiting request first (R66, R98, R131) -/

/-- A line condition and a posting may come in either order (R162, R164). -/
theorem State.setCondition_post (s : State) (c : LineCondition) (e : EntryNo) (causes : CauseSet) :
    (s.setCondition c).attention.post e causes =
      (({ s with attention := s.attention.post e causes } : State).setCondition c).attention := by
  simp only [State.setCondition_attention_eq, AttentionUnit.post_alert (c.joined_nonempty _), AttentionUnit.post_conditions]

theorem State.answerRequest_setCondition (s : State) (c : LineCondition) (e : EntryNo) (a : Action) (t : Tag) :
    ((s.setCondition c).setAsking false).answerRequest e a t =
      ((s.setAsking false).answerRequest e a t).setCondition c := by
  cases a with
  | fetch =>
    have placed : ∀ b : Bool, ((s.setCondition c).setAsking false).placePin e b =
        ((s.setAsking false).placePin e b).setCondition c := fun b => by
      simp only [State.placePin, State.setAsking, State.setCondition]
      cases s.table.pin <;> cases b <;> rfl
    simp only [State.answerRequest, placed]
    rfl
  | claim =>
    refine (State.decideClaim_eq _ e t).trans
      (Eq.trans ?_ (congrArg (fun u : State => u.setCondition c) (s.decideClaim_eq e t).symm))
    have same : (s.setCondition c).claims.decideClaim ((s.setCondition c).entry e).permits.claimOk e t =
        s.claims.decideClaim (s.entry e).permits.claimOk e t := rfl
    rw [same]
    obtain ⟨code, cause, claims⟩ := s.claims.decideClaim (s.entry e).permits.claimOk e t
    cases cause with
    | none => rfl
    | some cause =>
      exact congrArg (fun u : AttentionUnit => (s.coded code claims u)) (s.setCondition_post c e cause.set)
  | probe => rfl
  | release => rfl
  | retire => rfl
  | store => rfl

section
variable {s : State} {a : Action} {e : EntryNo} {t : Tag} (asks : s.Asks a e t)
include asks

/-- A request is taken once (R66). -/
theorem State.Asks.served : s.serveRequest.serveRequest = s.serveRequest :=
  State.serveRequest_of_not_asking (State.serveRequest_asking fun _ => asks.phase)

theorem State.Asks.line : s.serveRequest.line.phase = .space ∧ s.serveRequest.line.mode = s.line.mode := by
  rw [s.serveRequest_line]
  exact ⟨asks.phase, rfl⟩

theorem State.Asks.frameEnd (how : FrameEnd) : s.serveRequest.frameEnd how = s.frameEnd how := by
  rw [State.frameEnd, asks.served, State.frameEnd]

theorem State.Asks.frameCollided : s.serveRequest.frameCollided = s.frameCollided := by
  rw [State.frameCollided, asks.frameEnd, State.frameCollided]

theorem State.Asks.abandonFrame : s.serveRequest.abandonFrame = s.abandonFrame := by
  rw [State.abandonFrame, asks.frameEnd, State.abandonFrame]

theorem State.Asks.setCondition (c : LineCondition) : (s.setCondition c).serveRequest = s.serveRequest.setCondition c := by
  have stands : (s.setCondition c).Asks a e t := asks.of_line rfl
  rw [stands.serve, asks.serve, s.answerRequest_setCondition]

theorem State.Asks.setHost (x : HostPort) :
    ({ s with host := x } : State).serveRequest = { s.serveRequest with host := x } := by
  have stands : ({ s with host := x } : State).Asks a e t := asks.of_line rfl
  have count := s.serveRequest_queue.2.2
  rw [asks.serve] at count
  rw [stands.serve, asks.serve]
  refine (s.answerRequest_beside x s.requestCount e a t).trans ?_
  rw [← count]

theorem State.Asks.setMode_offline (mode : s.line.mode = .listen) : s.serveRequest.setMode 0x00#8 = s.setMode 0x00#8 := by
  rw [State.setMode_offline_abandons mode (.inl asks.phase),
    State.setMode_offline_abandons (asks.line.2.trans mode) (.inl asks.line.1), asks.abandonFrame]

end

/-- Two machines with one Host Port take a command alike (log 4). -/
theorem State.runCommand_of_host {s v : State} {c : Instr} (takes : s.Takes c) (host : v.host = s.host)
    (effect : State → State) :
    ∃ x : HostPort, s.runCommand c effect = effect { s with host := x } ∧
      v.runCommand c effect = effect { v with host := x } := by
  obtain ⟨accepted, ready⟩ := takes
  by_cases handed : s.host.work = some (.handed c)
  · refine ⟨s.host, if_pos handed, ?_⟩
    rw [← host] at handed ⊢
    exact if_pos handed
  · have idle := ready.resolve_left handed
    refine ⟨(s.setWork (.handed c)).host, ?_, ?_⟩
    · simp only [State.runCommand, if_neg handed, idle, if_true, accepted]
      rfl
    · simp only [State.runCommand, host, if_neg handed, idle, if_true, accepted, State.setWork]

/-- Settles O44: the answer's characters by its action; and every row that ends the space begins by taking the request. -/
theorem responseSpaceEndBeginsTheAnswer : Obligations.ResponseSpaceEndBeginsTheAnswer := by
  refine ⟨fun s e a payload mode phase asking entry action row => ?_,
    fun c s taken a e t mode phase asking entry action tag claims request event => ?_⟩
  · rw [exec_responseSpaceEnd mode phase, State.serveRequest_of_not_asking asking]
    have characters : s.answerCharacters = withCheck s.line.check payload := by
      rcases row with ⟨fetch, p, copy, segment, tagged, pin, _, framed, reply, copies, rfl⟩ | ⟨probe, rfl⟩ |
        ⟨fetch, probe, code, decided, rfl⟩
      · rw [State.answerCharacters_fetch entry action fetch framed, State.pinnedCells_eq pin copies, reply]
        rfl
      · exact State.answerCharacters_probe entry action probe
      · exact State.answerCharacters_code entry action fetch probe decided
    rw [characters]
    rfl
  · have asks : s.Asks a e t := ⟨phase, asking, entry, action, tag⟩
    obtain rfl : s.serveRequest = taken := asks.serve.trans (request.answers (claims.unique e))
    have mode' := asks.line.2.trans mode
    rcases event with rfl | rfl | rfl | rfl | ⟨rfl, takes⟩
    · rw [exec_responseSpaceEnd mode phase, exec_responseSpaceEnd mode' asks.line.1, asks.served]
    · have collides {u : State} (mode : u.line.mode = .listen) (phase : u.line.phase = .space) :
          exec .spaceCollision u = .next (u.frameCollided.enterQuiet .skipping) :=
        congrArg Host.Outcome.next (if_pos ⟨mode, phase⟩)
      rw [collides mode phase, collides mode' asks.line.1, asks.frameCollided]
    · have breaks {u : State} (mode : u.line.mode = .listen) (phase : u.line.phase = .space) :
          exec .breakRecognised u = .next u.frameCollided.newFrame := by
        rw [exec_breakRecognised mode, State.reachBreak, phase]
      rw [breaks mode phase, breaks mode' asks.line.1, asks.frameCollided]
    · have sticks {u : State} (mode : u.line.mode = .listen) (phase : u.line.phase = .space) :
          exec .lineStuck u = .next (((u.setCondition .lineStuck).frameEnd .faulty).enterQuiet .recovering) := by
        show execLineStuck u = _
        simp [execLineStuck, mode, phase, Phase.inFlight]
      have stands : (s.setCondition .lineStuck).Asks a e t := asks.of_line rfl
      rw [sticks mode phase, sticks mode' asks.line.1, ← asks.setCondition, stands.frameEnd]
    · obtain ⟨x, runs, served⟩ := State.runCommand_of_host takes s.serveRequest_host fun u => u.setMode 0x00#8
      have stands : ({ s with host := x } : State).Asks a e t := asks.of_line rfl
      show Host.Outcome.next _ = Host.Outcome.next _
      rw [runs, served, ← asks.setHost, stands.setMode_offline mode]

end Sys2Proof.Machine
end
